-- ==== Sys2Proof/Word.lean ====
section
/-!
DEFINITION. Words, the numbered things of the part, and what an agent's bus and the straps carry.
Sources: 00_scope.md "Numbers and sizes"; 11_signals_straps_and_formats.md R174, R175.
-/

namespace Sys2Proof

/-- A 32-bit word. -/
abbrev Word := BitVec 32

/-- An agent and its port AP0 to AP5 (00_scope.md "Agents and ports"). -/
abbrev Port := Fin 6

/-- A slot of the Window Table (01 section 1.1). -/
abbrev WSlot := Fin 128

/-- A grant slot of a window: 0 the owner's, 1 to 5 grantees' (01 section 1.4). -/
abbrev GSlot := Fin 6

/-- An extent number (R23). -/
abbrev Extent := Fin 1024

/-- Thirty-nine bits of an SDRAM word: 31:0 data, 38:32 check bits (R178). -/
abbrev Bits39 := BitVec 39

/-- Direction of a bus request, with the data of a write (R48, R174). -/
inductive BusOp where
  | read
  | write (data : Word)
  deriving DecidableEq, Repr

/-- A request as a port takes it from its bus: direction, size code APn_SZ, agent address (R174). -/
structure Request where
  op   : BusOp
  size : BitVec 2
  addr : Word
  deriving DecidableEq, Repr

/-- The straps, sampled at the release of RESETn (R175). -/
structure Straps where
  supsel : BitVec 3
  extsz  : BitVec 2
  freq   : BitVec 8
  deriving DecidableEq, Repr

end Sys2Proof
end

