-- ==== Sys2Proof/Config.lean ====
section
/-!
DEFINITION. What the SDRAM words hold, what a read of one can give, and the free values: constants
without a body, so that nothing can be proved of the value a manual's silence leaves open.
Sources: 07_memory_port_and_check_bits.md R120, R127, R128; 09_supervision.md R165;
11_signals_straps_and_formats.md R178.
-/

namespace Sys2Proof

/-- What one SDRAM word holds. The check-bit code is not given as numbers (R127), so a stored pattern
is named by what the part wrote, `some d` the valid word of data `d` or `none` the poison mark, and by
the bits that differ from it now (log 6). -/
structure StoredWord where
  content : Option Word
  errors  : Bits39
  deriving DecidableEq, Repr, Inhabited

/-- The four outcomes of R128, with the data the MPC can deliver. -/
inductive WordRead where
  | clean (data : Word)
  | corrected (data : Word)
  | uncorrectable
  | poisoned
  deriving DecidableEq, Repr, Inhabited

/-- FREE VALUE (log 5): what a bank word never written since power-on number `epoch` holds; R120 says
its content is undefined, data and check bits alike. -/
opaque Config.powerOnWord : (epoch : Nat) → (address : Nat) → StoredWord

/-- FREE VALUE (log 9): the outcome of a word with three or more changed bits (R128: "Three or more
errors may be given any outcome"). -/
opaque Config.manyErrors : Option Word → Bits39 → WordRead

/-- FREE VALUE (log 10): the order in which the windows of one agent are closed at the port reset with
this running number; R165 closes them at one take and gives no order. -/
opaque Config.resetOrder : (reset : Nat) → WSlot → Nat

/-- How many of the 39 bits are 1. -/
def bitCount (x : Bits39) : Nat := (List.range 39).countP fun i => x.getLsbD i

/-- In how many bit positions two patterns differ (R127, R128). -/
def distance (x y : Bits39) : Nat := bitCount (x ^^^ y)

/-- A code as R127 describes the part's: seven check bits for 32 data bits and a poison mark, any two valid words
at least four bits apart and the poison mark at least three bits from every valid word. -/
structure CheckCode where
  checkBits   : Word → BitVec 7
  poisonMark  : Bits39
  apart       : ∀ d e : Word, d ≠ e → 4 ≤ distance (checkBits d ++ d) (checkBits e ++ e)
  poisonApart : ∀ d : Word, 3 ≤ distance (checkBits d ++ d) poisonMark

/-- FREE VALUE (log 6): the part's code, of which nothing is known but what a `CheckCode` carries. That there is
such a code at all is the argument's (`exampleCode` in Machine/Code.lean), and the value has nothing to do with
it. -/
opaque Config.checkCode [Inhabited CheckCode] : CheckCode

/-- An address on the SDRAM's pins: SD_BA[1:0], and the row and the column that SD_A[12:0] carry in turn
(R178). -/
structure SdramAddr where
  bank   : BitVec 2
  row    : BitVec 13
  column : BitVec 13
  deriving DecidableEq, Repr, Inhabited

/-- FREE VALUE (log 39): how the setting of EXTSZ splits a bank word address into row, column and internal bank;
R178 says that it is split and gives no layout. -/
opaque Config.sdramSplit : (extsz : BitVec 2) → (wordAddress : Nat) → SdramAddr

end Sys2Proof
end

