-- ==== Sys2Proof/Syntax.lean ====
section
/-!
DEFINITION. The commands of the block: one constructor for each row of spec/opcode_table.json, in the
table's order. Commands taken at the Window Directory name the port whose slot holds them; their
arguments stand in that slot (R66, R68, log 30). Operands `changed` are the bits the SDRAM changed on its
own in the words a unit reads, since they were last written or read (log 7).
-/

namespace Sys2Proof

inductive Instr where
  /-- RESETN_RELEASE (R45), with the straps as sampled. -/
  | resetnRelease (straps : Straps)
  /-- RESETN_ASSERT (R119). -/
  | resetnAssert
  /-- ARSTN_ASSERT (R163). -/
  | arstnAssert (p : Port)
  /-- ARSTN_RELEASE (R163). -/
  | arstnRelease (p : Port)
  /-- VIEW_SPACE_REQUEST (R49). -/
  | viewSpaceRequest (p : Port) (r : Request)
  /-- CONTROL_IMAGE_REFUSED (R50). -/
  | controlImageRefused (p : Port) (r : Request)
  /-- ATTENTION_WORD_WRITE (R74), with the written value. -/
  | attentionWordWrite (p : Port) (value : Word)
  /-- NOTICE_WORD_WRITE (R77), with the written value. -/
  | noticeWordWrite (p : Port) (value : Word)
  /-- FAULT_RECORD_CLEAR (R63), with the written value. -/
  | faultRecordClear (p : Port) (value : Word)
  /-- CONTROL_WORD_WRITE (R65); the reads of control words, which have no row, come here too (log 21). -/
  | controlWordWrite (p : Port) (r : Request)
  /-- UNDEFINED_COMMAND (R66). -/
  | undefinedCommand (p : Port)
  /-- OPEN (R78). -/
  | openWindow (p : Port)
  /-- GROW (R81). -/
  | grow (p : Port)
  /-- SHRINK (R84). -/
  | shrink (p : Port)
  /-- CLOSE (R88). -/
  | close (p : Port)
  /-- OFFER (R99). -/
  | offer (p : Port)
  /-- WITHDRAW (R106). -/
  | withdraw (p : Port)
  /-- ACCEPT (R101). -/
  | accept (p : Port)
  /-- DECLINE (R103). -/
  | decline (p : Port)
  /-- REVOKE (R107). -/
  | revoke (p : Port)
  /-- RELEASE (R109). -/
  | release (p : Port)
  /-- READ_WINDOW (R114). -/
  | readWindow (p : Port)
  /-- READ_GRANT (R115). -/
  | readGrant (p : Port)
  /-- READ_VIEW (R116). -/
  | readView (p : Port)
  /-- READ_OFFER (R117). -/
  | readOffer (p : Port)
  /-- READ_ACCOUNT (R118). -/
  | readAccount (p : Port)
  /-- SET_QUOTA (R158). -/
  | setQuota (p : Port)
  /-- SET_RANK (R158). -/
  | setRank (p : Port)
  /-- SET_THRESHOLD (R159). -/
  | setThreshold (p : Port)
  /-- HOLD (R160). -/
  | hold (p : Port)
  /-- RESUME (R162). -/
  | resume (p : Port)
  /-- RESET_PORT (R163). -/
  | resetPort (p : Port)
  /-- FORCE_CLOSE (R166). -/
  | forceClose (p : Port)
  /-- MIGRATE (R167). -/
  | migrate (p : Port)
  /-- QUARANTINE (R168). -/
  | quarantine (p : Port)
  /-- RESTORE (R168). -/
  | restore (p : Port)
  /-- READ_EXTENT (R169). -/
  | readExtent (p : Port)
  /-- READ_POOL (R170). -/
  | readPool (p : Port)
  /-- CLEAR (R172). -/
  | clear (p : Port)
  /-- ACCESS_COMPLETION (R58) of port `p`'s access. -/
  | accessCompletion (p : Port) (changed : Bits39)
  /-- DRAIN_END (R94) of the window in slot `w`. -/
  | drainEnd (w : WSlot)
  /-- CLEAR_DRAIN_END (R173). -/
  | clearDrainEnd
  /-- HOLD_FINISH (R161) of the hold wait on port `q`. -/
  | holdFinish (q : Port)
  /-- TICK (R104). -/
  | tick
  /-- OFFER_EXPIRY (R105) of grant slot `k` of the window in slot `w`. -/
  | offerExpiry (w : WSlot) (k : GSlot)
  /-- INITIALIZATION_COMPLETE (R120). -/
  | initializationComplete
  /-- REFRESH (R121). -/
  | refresh
  /-- MEMORY_GRANT (R124). -/
  | memoryGrant
  /-- WPE_TAKE (R41). -/
  | wpeTake
  /-- WIPE_BLOCK_COMPLETE (R42). -/
  | wipeBlockComplete
  /-- VERIFY_BLOCK_COMPLETE (R43). -/
  | verifyBlockComplete (changed : Vector Bits39 16)
  /-- RELOCATION_START (R139). -/
  | relocationStart
  /-- BLOCK_COPY_COMPLETE (R141). -/
  | blockCopyComplete (changed : Vector Bits39 16)
  /-- SWAP (R146). -/
  | swap
  /-- PORT_SWAP_TAKE (R147). -/
  | portSwapTake (p : Port)
  /-- SWAP_ACKNOWLEDGE (R146). -/
  | swapAcknowledge (p : Port)
  /-- COMMAND_ISSUE (R66), with the written value. -/
  | commandIssue (p : Port) (value : Word)
  /-- CUTOVER_ANSWER (R144). -/
  | cutoverAnswer (p : Port)
  /-- ABANDONMENT_TAKE (R149). -/
  | abandonmentTake (p : Port)
  deriving DecidableEq, Repr

end Sys2Proof
end

