-- ==== Sys2Proof/Decode.lean ====
section
/-!
DEFINITION. What the straps select (R157), what a port reads from a request's address and size (R12, R49,
R50, R174), and the command that a word spells by the table's bits. No row of spec/opcode_table.json gives a field or a fixed bit, so no
word spells a command (log 23); a block has no instruction encoding and no encoder.
-/

namespace Sys2Proof

/-- The image number of an agent address, bits 31:28 (R12). -/
def Request.image (r : Request) : Nat := r.addr.toNat / 2 ^ 28

/-- The offset within the image, bits 27:0 (R12). -/
def Request.imageOffset (r : Request) : Nat := r.addr.toNat % 2 ^ 28

/-- R50, R174: a halfword at an odd address, a word at an address that is no multiple of 4, or the size
code 11. -/
def Request.misaligned (r : Request) : Bool :=
  decide (r.size = 3) || (decide (r.size = 1) && decide (r.addr.toNat % 2 ≠ 0)) ||
    (decide (r.size = 2) && decide (r.addr.toNat % 4 ≠ 0))

/-- A word request (size code 10) at a multiple of 4 (R50, R174). -/
def Request.alignedWord (r : Request) : Bool := decide (r.size = 2) && decide (r.addr.toNat % 4 = 0)

/-- A request the control image serves: image 15, offset 0x00 to 0x3F, an aligned word (R49, R50). -/
def Request.servedControl (r : Request) : Bool :=
  decide (r.image = 15) && decide (r.imageOffset ≤ 0x3F) && r.alignedWord

/-- A word write of `value` to the control word at `offset` (R176: image 15). -/
def Request.controlWrite (offset : Nat) (value : Word) : Request :=
  { op := .write value, size := 2, addr := BitVec.ofNat 32 (0xF0000000 + offset) }

/-- A word read of the control word at `offset` (R176: image 15). -/
def Request.controlRead (offset : Nat) : Request :=
  { op := .read, size := 2, addr := BitVec.ofNat 32 (0xF0000000 + offset) }

/-- The Supervisor Port that the straps select: SUPSEL 0 to 5 select AP0 to AP5, 6 and 7 select AP0
(R157). -/
def Straps.supervisor (t : Straps) : Port :=
  match t.supsel with
  | 1#3 => 1
  | 2#3 => 2
  | 3#3 => 3
  | 4#3 => 4
  | 5#3 => 5
  | _ => 0

/-- No row of the table gives bits, so no word spells a command. -/
def decodeTableWord (_nbits _w : Nat) : Option Instr := none

end Sys2Proof
end

