-- ==== Sys2Proof/Machine/State.lean ====
section
/-!
DEFINITION. The state of the NRH-6124 as plain data: every record, list, register, flag and pin that the
spec gives the part, and the queue of commands that wait. What the spec defines as a count or a view of
other state (usage counts, sizes, run state, NOTICE, requests waiting, the Quarantine Set) is stored once
and computed where it is read (log 17).
-/

namespace Sys2Proof.Machine

/-- A set of agent ports. -/
abbrev PortSet := Vector Bool 6

/-- No port. -/
def PortSet.none : PortSet := Vector.replicate 6 false

/-- All six ports. -/
def PortSet.all : PortSet := Vector.replicate 6 true

/-- A handle: generation and window slot number (R7). -/
structure Handle where
  gen  : BitVec 8
  slot : WSlot
  deriving DecidableEq, Repr

/-- Rights of a grant slot (R9). -/
inductive Rights where
  | read
  | readWrite
  deriving DecidableEq, Repr

/-- A grant slot, with the fields present in each of its states (R9). A lifetime of `none` is the value 0
of the manual, an offer that does not expire; `some n` has `n` ticks left (log 26). -/
inductive Grant where
  | vacant
  | offered (agent : Port) (rights : Rights) (lifetime : Option Nat)
  | active (agent : Port) (rights : Rights) (base : Nat)
  | revoked (agent : Port) (rights : Rights) (base : Nat)
  deriving DecidableEq, Repr

/-- Window states (R4). -/
inductive WinState where
  | vacant
  | opened
  | draining
  | retiring
  deriving DecidableEq, Repr

/-- A drain set: members drawn from AP0 to AP5 and the Relocation Engine (R3, R92). -/
structure DrainSet where
  ports : PortSet
  rle   : Bool
  deriving DecidableEq, Repr

/-- The empty drain set. -/
def DrainSet.empty : DrainSet := { ports := PortSet.none, rle := false }

/-- A window record (01 "The window record"). Its size is the length of `extents` (R2). `closedLen` is the
length in extents that the views of a closed window keep (R13, log 27). -/
structure Window where
  state     : WinState
  gen       : BitVec 8
  owner     : Option Port
  extents   : List Extent
  closedLen : Nat
  grants    : Vector Grant 6
  drain     : DrainSet
  retiring  : List Extent
  deriving DecidableEq, Repr

/-- A VACANT window slot of a given generation, every absent field absent (R1). -/
def Window.vacantAt (gen : BitVec 8) : Window :=
  { state := .vacant, gen := gen, owner := none, extents := [], closedLen := 0,
    grants := Vector.replicate 6 .vacant, drain := DrainSet.empty, retiring := [] }

/-- What SET QUOTA and SET RANK set in an Agent Account; its usage fields are counts of the Window Table
(R16, R17). -/
structure Account where
  windowQuota : Nat
  extentQuota : Nat
  rank        : Fin 4
  deriving DecidableEq, Repr

/-- The record of the drain of CLEAR (R171). `slotLive` tells whether the slot of its CLEAR is still in
progress for it (R173, log 28). -/
structure ClearRecord where
  drain    : DrainSet
  retiring : List Extent
  closed   : List WSlot
  slotLive : Bool
  deriving DecidableEq, Repr

/-- Status codes (R73). -/
inductive Status where
  | ok | badCommand | noRight | noWindow | badRange | quota | viewLimit | overlap | tableFull | noSpace
  | duplicate | noOffer | state
  deriving DecidableEq, Repr

/-- Command slot states (R64); the status is present in DONE. -/
inductive SlotState where
  | idle
  | waiting
  | inProgress
  | done (status : Status)
  deriving DecidableEq, Repr

/-- Four argument or result words. -/
structure Words4 where
  w0 : Word
  w1 : Word
  w2 : Word
  w3 : Word
  deriving DecidableEq, Repr

/-- Four words of zeros. -/
def Words4.zero : Words4 := { w0 := 0, w1 := 0, w2 := 0, w3 := 0 }

/-- A command slot (R64). -/
structure Slot where
  state : SlotState
  code  : BitVec 8
  args  : Words4
  res   : Words4
  deriving DecidableEq, Repr

/-- The slot at power-on, after a port reset and where CLEAR aborts it (R64). -/
def Slot.cleared : Slot := { state := .idle, code := 0, args := Words4.zero, res := Words4.zero }

/-- Attention kinds (R75). -/
inductive Kind where
  | offers | views | grants | fault | hold | drained | done | moved | quarantined
  deriving DecidableEq, Repr

/-- An attention set or a notice mask: one bit to a kind, at the positions R176 gives. -/
abbrev KindSet := BitVec 9

/-- Fault kinds (R61). -/
inductive FaultKind where
  | miss | revoked | rights | align | aperture | data | poison
  deriving DecidableEq, Repr

/-- A filled fault record with its LATER flag (R61). -/
structure FaultRecord where
  kind    : FaultKind
  addr    : Word
  isWrite : Bool
  handle  : Option Handle
  later   : Bool
  deriving DecidableEq, Repr

/-- Access sizes (R48). -/
inductive Size where
  | byte | half | word
  deriving DecidableEq, Repr

/-- The access record (R46, R53). -/
structure AccessRec where
  addr     : Word
  op       : BusOp
  size     : Size
  handle   : Handle
  ordinal  : Nat
  ext      : Extent
  byteAddr : Nat
  deriving DecidableEq, Repr

/-- Stall causes (R46). -/
inductive StallCause where
  | block | cutover
  deriving DecidableEq, Repr

/-- Access states, with the record where one is present (R46, R47). -/
inductive Access where
  | idle
  | stalled (cause : StallCause) (acc : AccessRec)
  | issued (acc : AccessRec)
  | orphaned (acc : AccessRec)
  deriving DecidableEq, Repr

/-- Responses of the agent bus (R174). -/
inductive BusCode where
  | done | retry | deny | derr
  deriving DecidableEq, Repr

/-- A response as the port gives it: its code and, where R174 gives one, the data on APn_RD. -/
structure Response where
  code : BusCode
  data : Option Word
  deriving DecidableEq, Repr

/-- The hold wait WDIR keeps for a port (R160); `slotLive` tells whether the slot of its HOLD is still in
progress for it (R161, R165, log 28). -/
inductive HoldWait where
  | absent
  | present (slotLive : Bool)
  deriving DecidableEq, Repr

/-- What an Agent Port Unit keeps (R46, R64, R74, R77), WDIR's hold wait on the port (R160), the level of
its ARSTn pin (`arstn` says it is asserted: the port is then IN RESET, R163) and the response it last gave
(`none` since the arrival of a request not yet answered, and after a reset; log 25). -/
structure PortUnit where
  arstn     : Bool
  hold      : Bool
  access    : Access
  slot      : Slot
  attention : KindSet
  mask      : KindSet
  fault     : Option FaultRecord
  holdWait  : HoldWait
  response  : Option Response
  deriving DecidableEq, Repr

/-- A port at its power-on values, its ARSTn as given (R46, R64, R74, R77, R163). -/
def PortUnit.powerOn (arstn : Bool) : PortUnit :=
  { arstn := arstn, hold := false, access := .idle, slot := Slot.cleared, attention := 0, mask := 0,
    fault := none, holdWait := .absent, response := none }

/-- Quarantine causes (R24). -/
inductive Cause where
  | verify | relocated | supervisor
  deriving DecidableEq, Repr

/-- Extent states, with the window and ordinal of a bound extent and the cause of a quarantined one
(R24, R25). -/
inductive ExtState where
  | free
  | bound (window : Handle) (ordinal : Nat)
  | moving (window : Handle) (ordinal : Nat)
  | target
  | retiring
  | dirty
  | wiping
  | quarantined (cause : Cause)
  deriving DecidableEq, Repr

/-- An entry of the Extent Map (R24); the in relocation list field is membership in the Relocation List
(R32). -/
structure Entry where
  st       : ExtState
  count    : Nat
  poisoned : Bool
  deriving DecidableEq, Repr

/-- The Wipe Engine (R40). -/
inductive Wpe where
  | idle
  | writing (ext : Extent) (block : Nat)
  | verifying (ext : Extent) (block : Nat) (failed : Bool)
  deriving DecidableEq, Repr

/-- Swap state of a cutover (R137), with the ports still to acknowledge and, among them, those that have
not yet taken the swap (R146, R147). -/
inductive SwapState where
  | notRequested
  | requested
  | taken (toAck : PortSet) (handed : PortSet)
  deriving DecidableEq, Repr

/-- The drain that holds an abandoned source and target (R137). -/
inductive DrainOwner where
  | window (w : WSlot)
  | clear
  deriving DecidableEq, Repr

/-- The Relocation Engine (R137). The block in copy is the block at the pointer; `blockInCopy` tells
whether there still is one in ABANDONING. In CUTOVER `clearSent` and `busySent` are the ports whose answer
the engine has not yet taken (R144, log 19). -/
inductive Rle where
  | idle
  | waiting
  | copying (src tgt : Extent) (ptr : Nat)
  | cutover (src tgt : Extent) (ptr : Nat) (awaited clearSent busySent : PortSet) (swap : SwapState)
  | abandoning (src tgt : Extent) (ptr : Nat) (blockInCopy : Bool) (owner : DrainOwner)
  deriving DecidableEq, Repr

/-- Requesters of the memory (R123). -/
inductive Requester where
  | port (p : Port)
  | rle
  | wpe
  deriving DecidableEq, Repr

/-- The operation unit in progress (R122): an agent's access, with the target extent a write is mirrored
to as its grant decided (R132), or the block the Relocation or the Wipe Engine is at. -/
inductive OpUnit where
  | agent (p : Port) (mirror : Option Extent)
  | copy
  | wipe
  | verify
  deriving DecidableEq, Repr

/-- The SDRAM bank: stored words by bank word address (R178), addresses strictly rising; an address not
listed was never written since power-on (log 5). -/
abbrev Memory := List (Nat × StoredWord)

/-- The state of the part and the queue of commands that wait. -/
structure State where
  /-- Commands that wait, first in, first out. -/
  pending        : List Instr
  /-- RESETn is asserted. -/
  resetn         : Bool
  straps         : Straps
  ports          : Vector PortUnit 6
  windows        : Vector Window 128
  accounts       : Vector Account 6
  lastServed     : Port
  clearRec       : Option ClearRecord
  extents        : Vector Entry 1024
  freeList       : List Extent
  wipeList       : List Extent
  relocList      : List Extent
  threshold      : Nat
  wpe            : Wpe
  rle            : Rle
  /-- Ports that have not yet taken an abandonment handed to them (R149). -/
  abandonHanded  : PortSet
  bankReady      : Bool
  unit           : Option OpUnit
  lastGranted    : Vector Port 4
  prevGrant      : Option Requester
  wipeWait       : Nat
  refreshPending : Bool
  mem            : Memory
  /-- The model's own: counts power-ons (log 5). -/
  epoch          : Nat
  /-- The model's own: counts port resets, for the free order of closes (log 10). -/
  freeIdx        : Nat
  deriving DecidableEq, Repr

/-- Why the part stops: it never does (every refusal is answered on the bus or in a status, R62, R73), so
there is no fault. -/
inductive Fault where
  deriving DecidableEq, Repr

/-- Why the model has no meaning to give. -/
inductive Refusal where
  /-- Raised by exec's arm of a command not modelled yet; safe, since nothing can be proved of its effect.
  No arm uses it. -/
  | notModelled (mnemonic : String)
  deriving DecidableEq, Repr

/-- The part right after the release of RESETn with these straps and these levels of the ARSTn pins
(R1, R16, R24, R27 to R32, R40, R45, R46, R64, R67, R74, R77, R119, R137, R163, R171). The queue and the
model's own counters are given. -/
def State.powerOn (t : Straps) (arstn : PortSet) (pending : List Instr) (epoch freeIdx : Nat) : State :=
  { pending := pending
    resetn := false
    straps := t
    ports := Vector.ofFn fun p => PortUnit.powerOn arstn[p.val]
    windows := Vector.replicate 128 (Window.vacantAt 0)
    accounts := Vector.ofFn fun p =>
      if p = t.supervisor then { windowQuota := 16, extentQuota := 1024, rank := 2 }
      else { windowQuota := 0, extentQuota := 0, rank := 2 }
    lastServed := 5
    clearRec := none
    extents := Vector.replicate 1024 { st := .dirty, count := 0, poisoned := false }
    freeList := []
    wipeList := List.finRange 1024
    relocList := []
    threshold := 4
    wpe := .idle
    rle := .idle
    abandonHanded := PortSet.none
    bankReady := false
    unit := none
    lastGranted := Vector.replicate 4 5
    prevGrant := none
    wipeWait := 0
    refreshPending := false
    mem := []
    epoch := epoch
    freeIdx := freeIdx }

/-- The machine right after reset: RESETn just released, every strap 0 and no ARSTn asserted
(DESIGN CHOICE, log 3). -/
def State.reset : State :=
  State.powerOn { supsel := 0, extsz := 0, freq := 0 } PortSet.none [] 0 0

end Sys2Proof.Machine
end

