-- ==== Sys2Proof/Machine/Tables.lean ====
section
/-!
DEFINITION. Reading and changing the part's tables (ports, windows, extents, accounts) and its sets (of
ports, of drain members): the one place that touches their representation.
-/

namespace Sys2Proof.Machine

/-- The entry at `i`. -/
def Tab.get {α : Type} {n : Nat} (v : Vector α n) (i : Fin n) : α := v[i.val]

/-- The table with the entry at `i` changed by `f`. -/
def Tab.upd {α : Type} {n : Nat} (v : Vector α n) (i : Fin n) (f : α → α) : Vector α n :=
  v.set i.val (f v[i.val])

/-- `f` applied to the entries of a list that stand at `k`, `k+1`, … -/
def Tab.mapFrom {α : Type} {n : Nat} (f : Fin n → α → α) : Nat → List α → List α
  | _, [] => []
  | k, x :: xs => (if h : k < n then f ⟨k, h⟩ x else x) :: Tab.mapFrom f (k + 1) xs

theorem Tab.mapFrom_length {α : Type} {n : Nat} (f : Fin n → α → α) (k : Nat) (l : List α) :
    (Tab.mapFrom f k l).length = l.length := by
  induction l generalizing k with
  | nil => rfl
  | cons x xs ih => simp [Tab.mapFrom, ih]

/-- The table with every entry changed by `f`, which knows the entry's number. -/
def Tab.mapAll {α : Type} {n : Nat} (v : Vector α n) (f : Fin n → α → α) : Vector α n :=
  Vector.mk (Array.mk (Tab.mapFrom f 0 v.toList)) (by simp [Tab.mapFrom_length])

/-- The numbers from `k` on of the entries of a list that pass a test, ascending. -/
def Tab.whereFrom {α : Type} {n : Nat} (test : Fin n → α → Bool) : Nat → List α → List (Fin n)
  | _, [] => []
  | k, x :: xs =>
    if h : k < n then
      if test ⟨k, h⟩ x then ⟨k, h⟩ :: Tab.whereFrom test (k + 1) xs else Tab.whereFrom test (k + 1) xs
    else Tab.whereFrom test (k + 1) xs

/-- The numbers of the entries that pass a test, ascending. -/
def Tab.indices {α : Type} {n : Nat} (v : Vector α n) (test : Fin n → α → Bool) : List (Fin n) :=
  Tab.whereFrom test 0 v.toList

/-- The ports of which `f` holds. -/
def PortSet.of (f : Port → Bool) : PortSet := Vector.ofFn f

/-- Membership. -/
def PortSet.has (x : PortSet) (p : Port) : Bool := x[p.val]

/-- The set with `p`. -/
def PortSet.add (x : PortSet) (p : Port) : PortSet := x.set p.val true

/-- The set without `p`. -/
def PortSet.erase (x : PortSet) (p : Port) : PortSet := x.set p.val false

/-- Union. -/
def PortSet.union (x y : PortSet) : PortSet := PortSet.of fun p => x.has p || y.has p

/-- No member. -/
def PortSet.isEmpty (x : PortSet) : Bool := decide (x = PortSet.none)

/-- A member of a drain set (R92). -/
inductive Member where
  | port (p : Port)
  | rle
  deriving DecidableEq, Repr

/-- Membership in a drain set. -/
def DrainSet.has (d : DrainSet) : Member → Bool
  | .port p => d.ports.has p
  | .rle => d.rle

/-- The drain set without a member (R93). -/
def DrainSet.remove (d : DrainSet) : Member → DrainSet
  | .port p => { d with ports := d.ports.erase p }
  | .rle => { d with rle := false }

/-- Union: a party in both sets is one member (R91). -/
def DrainSet.union (d e : DrainSet) : DrainSet :=
  { ports := d.ports.union e.ports, rle := d.rle || e.rle }

/-- No member. -/
def DrainSet.isEmpty (d : DrainSet) : Bool := d.ports.isEmpty && !d.rle

/-- The record of port `p`. -/
def State.port (s : State) (p : Port) : PortUnit := Tab.get s.ports p

/-- The window record in slot `w`. -/
def State.window (s : State) (w : WSlot) : Window := Tab.get s.windows w

/-- The Extent Map entry of extent `e`. -/
def State.entry (s : State) (e : Extent) : Entry := Tab.get s.extents e

/-- The Agent Account of agent `p`. -/
def State.account (s : State) (p : Port) : Account := Tab.get s.accounts p

/-- Grant slot `k`. -/
def Window.grant (w : Window) (k : GSlot) : Grant := Tab.get w.grants k

/-- The state with port `p`'s record changed. -/
def State.updPort (s : State) (p : Port) (f : PortUnit → PortUnit) : State :=
  { s with ports := Tab.upd s.ports p f }

/-- The state with every port's record changed. -/
def State.mapPorts (s : State) (f : Port → PortUnit → PortUnit) : State :=
  { s with ports := Tab.mapAll s.ports f }

/-- The state with the window record in slot `w` changed. -/
def State.updWindow (s : State) (w : WSlot) (f : Window → Window) : State :=
  { s with windows := Tab.upd s.windows w f }

/-- The state with every window record changed. -/
def State.mapWindows (s : State) (f : WSlot → Window → Window) : State :=
  { s with windows := Tab.mapAll s.windows f }

/-- The state with the entry of extent `e` changed. -/
def State.updExtent (s : State) (e : Extent) (f : Entry → Entry) : State :=
  { s with extents := Tab.upd s.extents e f }

/-- The state with every Extent Map entry changed. -/
def State.mapExtents (s : State) (f : Extent → Entry → Entry) : State :=
  { s with extents := Tab.mapAll s.extents f }

/-- The state with the Agent Account of agent `p` changed. -/
def State.updAccount (s : State) (p : Port) (f : Account → Account) : State :=
  { s with accounts := Tab.upd s.accounts p f }

/-- The window with grant slot `k` changed. -/
def Window.setGrant (w : Window) (k : GSlot) (g : Grant) : Window :=
  { w with grants := Tab.upd w.grants k fun _ => g }

end Sys2Proof.Machine
end

