-- ==== Sys2Proof/Machine/Operands.lean ====
section
/-!
DEFINITION. Operand forms: the geometry the straps select (R23, R175, R179), byte lanes of the agent bus
(R174), command arguments and handles (R7, R177), and the packing of results into fields (R177).
-/

namespace Sys2Proof.Machine

/-- The Supervisor Port (R157). -/
def State.supervisor (s : State) : Port := s.straps.supervisor

/-- Bytes of an extent: 8, 16, 32 or 64 KB (R23, R175). -/
def State.extentBytes (s : State) : Nat := 8192 * 2 ^ s.straps.extsz.toNat

/-- Blocks of 64 bytes in an extent: 128, 256, 512 or 1024 (R23). -/
def State.blocksPerExtent (s : State) : Nat := 128 * 2 ^ s.straps.extsz.toNat

/-- Words in an extent: 2048, 4096, 8192 or 16384 (R23). -/
def State.wordsPerExtent (s : State) : Nat := 2048 * 2 ^ s.straps.extsz.toNat

/-- Bytes of view space, offsets 0x0000_0000 to 0x0FFF_FFFF (R12). -/
def viewSpaceBytes : Nat := 0x10000000

/-- The frequency of CLK in MHz that the straps give, 50 to 133 (R179). -/
def Straps.clkMHz (t : Straps) : Nat := max 50 (min 133 t.freq.toNat)

/-- CLK periods that the tick generator counts to each tick (R179). -/
def Straps.clkPerTick (t : Straps) : Nat := clkMHz t * 1000

/-- The block of an extent that holds a byte address (R23). -/
def blockOf (byteAddr : Nat) : Nat := byteAddr / 64

/-- The bank word address of a byte address within an extent (R178). -/
def State.bankAddr (s : State) (e : Extent) (byteAddr : Nat) : Nat :=
  e.val * s.wordsPerExtent + byteAddr / 4

/-- The row, column and internal bank of a bank word address (R178, log 39). -/
def State.sdramAddr (s : State) (e : Extent) (byteAddr : Nat) : SdramAddr :=
  Config.sdramSplit s.straps.extsz (s.bankAddr e byteAddr)

/-- The request that the lines of a port carry at its arrival: APn_WR is 1 for a write and 0 for a read, and
APn_WD counts for a write only (R174). -/
def requestOfBus (wr : BitVec 1) (sz : BitVec 2) (a wd : Word) : Request :=
  { op := if wr = 1 then .write wd else .read, size := sz, addr := a }

/-- The size a size code names: 00 byte, 01 halfword, 10 word (R174). A request of code 11 is refused
before its size is used. -/
def sizeOf (code : BitVec 2) : Size :=
  if code = 0 then .byte else if code = 1 then .half else .word

/-- The byte lanes of a size at an address: the byte at low address bits `k` travels on lines 8k+7 to 8k
(R174). -/
def laneMask (size : Size) (addr : Word) : Word :=
  match size with
  | .byte => 0xFF#32 <<< (8 * (addr.toNat % 4))
  | .half => 0xFFFF#32 <<< (8 * (addr.toNat % 4))
  | .word => 0xFFFFFFFF#32

/-- Data on the requested lanes, 0 on the others (R174). -/
def onLanes (size : Size) (addr data : Word) : Word := data &&& laneMask size addr

/-- The written lanes from `new`, the others from `old` (R57, R131, R174). -/
def mergeLanes (size : Size) (addr old new : Word) : Word :=
  (old &&& ~~~ laneMask size addr) ||| (new &&& laneMask size addr)

/-- A handle as a word: generation in bits 15:8, bit 7 zero, slot in bits 6:0 (R7). -/
def Handle.word (h : Handle) : Word := BitVec.ofNat 32 (h.gen.toNat * 256 + h.slot.val)

/-- The handle in bits 15:0 of an argument word, `none` where its bit 7 is 1; higher bits are ignored
(R7, R177). -/
def handleArg (a : Word) : Option Handle :=
  if a.toNat / 128 % 2 = 1 then none
  else some { gen := BitVec.ofNat 8 (a.toNat / 256),
              slot := ⟨a.toNat % 128, Nat.mod_lt _ (by decide)⟩ }

/-- An agent or port number, the whole word, 0 to 5 (R177). -/
def portArg (a : Word) : Option Port := if h : a.toNat < 6 then some ⟨a.toNat, h⟩ else none

/-- A grant slot number, the whole word, 0 to 5 (R115, R177). -/
def grantSlotArg (a : Word) : Option GSlot := if h : a.toNat < 6 then some ⟨a.toNat, h⟩ else none

/-- An extent number, the whole word, 0 to 1023 (R177, 09 section 9.6). -/
def extentArg (a : Word) : Option Extent := if h : a.toNat < 1024 then some ⟨a.toNat, h⟩ else none

/-- A rank, the whole word, 0 to 3 (R158). -/
def rankArg (a : Word) : Option (Fin 4) := if h : a.toNat < 4 then some ⟨a.toNat, h⟩ else none

/-- Rights, the whole word: 0 READ, 1 READWRITE (R99). -/
def rightsArg (a : Word) : Option Rights :=
  if a.toNat = 0 then some .read else if a.toNat = 1 then some .readWrite else none

/-- A lifetime, the whole word, 0 to 255; 0 is an offer that does not expire (R99, log 26). -/
def lifetimeArg (a : Word) : Option (Option Nat) :=
  if a.toNat = 0 then some none else if a.toNat ≤ 255 then some (some a.toNat) else none

/-- Handle validity (R7): bit 7 zero, the slot not VACANT, the generation the slot's own. Gives the slot. -/
def validHandle (s : State) (a : Word) : Option WSlot :=
  match handleArg a with
  | none => none
  | some h =>
    if (s.window h.slot).state ≠ .vacant ∧ (s.window h.slot).gen = h.gen then some h.slot else none

/-- The handle of the window in slot `w` (R7). -/
def State.handleOf (s : State) (w : WSlot) : Handle := { gen := (s.window w).gen, slot := w }

/-- A word of fields: each a low bit, a width and a value; every bit outside a field is 0 (R177). -/
def packFields (fields : List (Nat × Nat × Nat)) : Word :=
  BitVec.ofNat 32 ((fields.map fun f => f.2.2 % 2 ^ f.2.1 * 2 ^ f.1).sum)

/-- A number as a result word (R177). -/
def numWord (n : Nat) : Word := BitVec.ofNat 32 n

/-- One result word, the others 0. -/
def Words4.one (w : Word) : Words4 := { Words4.zero with w0 := w }

end Sys2Proof.Machine
end

