-- ==== Sys2Proof/Machine/Flags.lean ====
section
/-!
DEFINITION. Codes and flags: attention kinds and NOTICE (R74 to R77, R176), status and state codes (R73,
R176, R177), the fault record (R61, R62), and the words of the control image as an agent reads them (R176).
-/

namespace Sys2Proof.Machine

/-- The bit position of an attention kind (R176). -/
def Kind.pos : Kind → Nat
  | .offers => 0 | .views => 1 | .grants => 2 | .fault => 3 | .hold => 4
  | .drained => 5 | .done => 6 | .moved => 7 | .quarantined => 8

/-- The set of one kind. -/
def Kind.set (k : Kind) : KindSet := 1#9 <<< k.pos

/-- The set holds the kind. -/
def KindSet.has (x : KindSet) (k : Kind) : Bool := x.getLsbD k.pos

/-- Adding a kind: a kind already present leaves the set as it is (R74). -/
def KindSet.add (x : KindSet) (k : Kind) : KindSet := x ||| k.set

/-- A kind added where a condition holds. -/
def KindSet.addIf (c : Bool) (x : KindSet) (k : Kind) : KindSet := if c then KindSet.add x k else x

/-- An attention kind added to port `p`'s attention set (R75). -/
def State.addAttention (s : State) (p : Port) (k : Kind) : State :=
  s.updPort p fun u => { u with attention := KindSet.add u.attention k }

/-- An attention kind added to every port of which `c` holds (R75: one event may add to several ports). -/
def State.addAttentionWhere (s : State) (c : Port → Bool) (k : Kind) : State :=
  s.mapPorts fun p u => { u with attention := KindSet.addIf (c p) u.attention k }

/-- The NOTICE output of port `p`: asserted while the attention set and the notice mask share a kind,
negated while RESETn is asserted (R77). -/
def State.notice (s : State) (p : Port) : Bool :=
  !s.resetn && decide ((s.port p).attention &&& (s.port p).mask ≠ 0)

/-- Status codes (R73). -/
def Status.code : Status → Nat
  | .ok => 0 | .badCommand => 1 | .noRight => 2 | .noWindow => 3 | .badRange => 4 | .quota => 5
  | .viewLimit => 6 | .overlap => 7 | .tableFull => 8 | .noSpace => 9 | .duplicate => 11 | .noOffer => 12
  | .state => 13

/-- Bits 9:8 of the slot word: 00 IDLE, 01 BUSY, 10 DONE (R176). -/
def SlotState.code : SlotState → Nat
  | .idle => 0 | .waiting => 1 | .inProgress => 1 | .done _ => 2

/-- The status the slot word shows, 0 when absent (R64, R176). -/
def SlotState.statusCode : SlotState → Nat
  | .done st => st.code
  | _ => 0

/-- A slot is BUSY while it waits and while it is in progress (R64). -/
def SlotState.busy : SlotState → Bool
  | .waiting | .inProgress => true
  | .idle | .done _ => false

/-- Fault kind codes (R176). -/
def FaultKind.code : FaultKind → Nat
  | .miss => 1 | .revoked => 2 | .rights => 3 | .align => 4 | .aperture => 5 | .data => 6 | .poison => 7

/-- Window state codes (R177). -/
def WinState.code : WinState → Nat
  | .vacant => 0 | .opened => 1 | .draining => 2 | .retiring => 3

/-- Grant slot state codes (R177). -/
def Grant.code : Grant → Nat
  | .vacant => 0 | .offered _ _ _ => 1 | .active _ _ _ => 2 | .revoked _ _ _ => 3

/-- Rights codes (R177). -/
def Rights.code : Rights → Nat
  | .read => 0 | .readWrite => 1

/-- Extent state codes (R177). -/
def ExtState.code : ExtState → Nat
  | .free => 0 | .bound _ _ => 1 | .moving _ _ => 2 | .target => 3 | .retiring => 4 | .dirty => 5
  | .wiping => 6 | .quarantined _ => 7

/-- Quarantine cause codes, 0 where the cause is absent (R177). -/
def ExtState.causeCode : ExtState → Nat
  | .quarantined .verify => 1
  | .quarantined .relocated => 2
  | .quarantined .supervisor => 3
  | _ => 0

/-- Relocation Engine phase codes (R177). -/
def Rle.code : Rle → Nat
  | .idle => 0 | .waiting => 1 | .copying _ _ _ => 2 | .cutover _ _ _ _ _ _ _ => 3
  | .abandoning _ _ _ _ _ => 4

/-- Wipe Engine phase codes (R177). -/
def Wpe.code : Wpe → Nat
  | .idle => 0 | .writing _ _ => 1 | .verifying _ _ _ => 2

/-- A fault of port `p` (R62): an empty record is filled and FAULT is added; a filled one keeps its fields
and its LATER is set. -/
def State.recordFault (s : State) (p : Port) (kind : FaultKind) (addr : Word) (isWrite : Bool)
    (handle : Option Handle) : State :=
  match (s.port p).fault with
  | none =>
    (s.updPort p fun u =>
      { u with fault := some { kind := kind, addr := addr, isWrite := isWrite, handle := handle,
                               later := false } }).addAttention p .fault
  | some f => s.updPort p fun u => { u with fault := some { f with later := true } }

/-- Response codes on APn_RSP[1:0] (R174). -/
def BusCode.rsp : BusCode → BitVec 2
  | .done => 0b00 | .retry => 0b01 | .deny => 0b10 | .derr => 0b11

/-- The response lines of port `p`, while it presents a response: APn_RSP and, where the response drives it,
APn_RD (R174, log 25). -/
def State.responseLines (s : State) (p : Port) : Option (BitVec 2 × Option Word) :=
  (s.port p).response.map fun r => (r.code.rsp, r.data)

/-- The response of a request (R174). -/
def State.respond (s : State) (p : Port) (code : BusCode) (data : Option Word) : State :=
  s.updPort p fun u => { u with response := some { code := code, data := data } }

/-- DENY with a fault kind; APn_RD is driven with 0 (R62, R174). -/
def State.deny (s : State) (p : Port) (kind : FaultKind) (r : Request) (handle : Option Handle) : State :=
  (s.recordFault p kind r.addr (decide (r.op ≠ .read)) handle).respond p .deny (some 0)

/-- RETRY: no fault; APn_RD is driven with 0 (R62, R174). -/
def State.retry (s : State) (p : Port) : State := s.respond p .retry (some 0)

/-- The slot word: code in bits 7:0, state in 9:8, status in 19:16 (R176). -/
def Slot.word (x : Slot) : Word :=
  packFields [(0, 8, x.code.toNat), (8, 2, x.state.code), (16, 4, x.state.statusCode)]

/-- Fault word 0: handle in 15:0, kind in 18:16, direction in 20, LATER in 31; an empty record reads 0
(R176). -/
def faultWord0 (f : Option FaultRecord) : Word :=
  match f with
  | none => 0
  | some f =>
    packFields [(0, 16, (f.handle.map fun h => h.word.toNat).getD 0), (16, 3, f.kind.code),
      (20, 1, f.isWrite.toNat), (31, 1, f.later.toNat)]

/-- Fault word 1: the agent address of the fault; an empty record reads 0 (R176). -/
def faultWord1 (f : Option FaultRecord) : Word := (f.map (·.addr)).getD 0

/-- What a read of a control word gives (R65, R74, R77, R176), the word given by its offset. -/
def PortUnit.controlRead (u : PortUnit) (offset : Nat) : Word :=
  match offset / 4 with
  | 0 => u.slot.word
  | 1 => u.slot.args.w0
  | 2 => u.slot.args.w1
  | 3 => u.slot.args.w2
  | 4 => u.slot.args.w3
  | 5 => u.slot.res.w0
  | 6 => u.slot.res.w1
  | 7 => u.slot.res.w2
  | 8 => u.slot.res.w3
  | 9 => u.attention.setWidth 32
  | 10 => u.mask.setWidth 32
  | 11 => faultWord0 u.fault
  | 12 => faultWord1 u.fault
  | _ => 0

end Sys2Proof.Machine
end

