-- ==== Sys2Proof/Machine/Arbiter.lean ====
section
/-!
DEFINITION. The two arbiters: the command arbiter of the Window Directory (R67) and the memory arbiter
(R123 to R126), with the grant of a unit and its mirror decision (R132).
-/

namespace Sys2Proof.Machine

/-- The access record, present in STALLED, ISSUED and ORPHANED (R46). -/
def Access.record : Access → Option AccessRec
  | .idle => none
  | .stalled _ a => some a
  | .issued a => some a
  | .orphaned a => some a

/-- The six ports in order after a port, wrapping from AP5 to AP0 (R67, R124). -/
def portsAfter (last : Port) : List Port :=
  (List.range 6).map fun i => ⟨(last.val + 1 + i) % 6, Nat.mod_lt _ (by decide)⟩

/-- The port whose command WDIR takes next: the first waiting slot after the last-served port (R67). -/
def State.nextCaller (s : State) : Option Port :=
  (portsAfter s.lastServed).find? fun p => decide ((s.port p).slot.state = .waiting)

/-- The engine's source, target and copy pointer, in the phases that hold them (R137). -/
def Rle.relocation : Rle → Option (Extent × Extent × Nat)
  | .idle => none
  | .waiting => none
  | .copying src tgt ptr => some (src, tgt, ptr)
  | .cutover src tgt ptr _ _ _ _ => some (src, tgt, ptr)
  | .abandoning src tgt ptr _ _ => some (src, tgt, ptr)

/-- The engine has a block copy presented or in progress (R141, R150). -/
def Rle.hasBlock : Rle → Bool
  | .copying _ _ _ => true
  | .abandoning _ _ _ b _ => b
  | .idle | .waiting | .cutover _ _ _ _ _ _ _ => false

/-- Port `p` has a request at the MPC (R123: its ISSUED access, also when it has become ORPHANED) that is
not the unit in progress. -/
def State.portWaits (s : State) (p : Port) : Bool :=
  (match (s.port p).access with
    | .issued _ | .orphaned _ => true
    | .idle | .stalled _ _ => false) &&
  (match s.unit with
    | some (.agent q _) => decide (q ≠ p)
    | _ => true)

/-- The RLE has a request waiting. -/
def State.rleWaits (s : State) : Bool := s.rle.hasBlock && decide (s.unit ≠ some .copy)

/-- The WPE has a request waiting. -/
def State.wpeWaits (s : State) : Bool :=
  decide (s.wpe ≠ .idle) && decide (s.unit ≠ some .wipe) && decide (s.unit ≠ some .verify)

/-- Some agent port is a candidate. -/
def State.agentWaits (s : State) : Bool := (List.finRange 6).any s.portWaits

/-- The first candidate port of a rank after the last-granted port of that rank (R124 step 3). -/
def State.pickOfRank (s : State) (r : Fin 4) : Option Port :=
  (portsAfter (Tab.get s.lastGranted r)).find? fun p => s.portWaits p && decide ((s.account p).rank = r)

/-- The candidate port of the highest rank, in turn (R124 step 3). -/
def State.pickPort (s : State) : Option Port := (List.finRange 4).findSome? s.pickOfRank

/-- The requester that the arbiter chooses among the candidates (R124). -/
def State.pickRequester (s : State) : Option Requester :=
  if s.wpeWaits && decide (s.wipeWait = 16) then some .wpe
  else if s.rleWaits && !(decide (s.prevGrant = some .rle) && s.agentWaits) then some .rle
  else
    match s.pickPort with
    | some p => some (.port p)
    | none => if s.wpeWaits then some .wpe else none

/-- The swap of the relocation is taken: its extents are the former source and the former target (R138). -/
def Rle.swapped : Rle → Bool
  | .cutover _ _ _ _ _ _ (.taken _ _) => true
  | .cutover _ _ _ _ _ _ .notRequested => false
  | .cutover _ _ _ _ _ _ .requested => false
  | .idle | .waiting | .copying _ _ _ | .abandoning _ _ _ _ _ => false

/-- R132: a write to the relocation source whose block lies below the copy pointer is mirrored to the
target; the source exists in COPYING, in CUTOVER until the swap (R138, R143; log 31) and in ABANDONING (R151). -/
def State.mirrorOf (s : State) (a : AccessRec) : Option Extent :=
  match a.op, s.rle.swapped, s.rle.relocation with
  | .write _, false, some (src, tgt, ptr) =>
    if a.ext = src ∧ blockOf a.byteAddr < ptr then some tgt else none
  | _, _, _ => none

/-- The unit a grant to a requester begins (R122). -/
def State.unitFor (s : State) : Requester → Option OpUnit
  | .port p => some (.agent p ((s.port p).access.record.bind s.mirrorOf))
  | .rle => some .copy
  | .wpe =>
    match s.wpe with
    | .idle => none
    | .writing _ _ => some .wipe
    | .verifying _ _ _ => some .verify

/-- The wipe wait count after a grant (R125). -/
def State.wipeWaitAfter (s : State) (q : Requester) : Nat :=
  if q = .wpe then 0 else if s.wpeWaits then min 16 (s.wipeWait + 1) else s.wipeWait

/-- The last-granted ports after a grant (R124 step 3). -/
def State.lastGrantedAfter (s : State) : Requester → Vector Port 4
  | .port p => Tab.upd s.lastGranted (s.account p).rank fun _ => p
  | .rle => s.lastGranted
  | .wpe => s.lastGranted

/-- A grant can be made: the bank READY and idle, no refresh pending (section 7.3, R123, R126). -/
def State.grantDue (s : State) : Bool := s.bankReady && decide (s.unit = none) && !s.refreshPending

/-- The grant of the memory to a requester (R124, R125, R126). -/
def State.grantTo (s : State) (q : Requester) : State :=
  { s with
    unit := s.unitFor q
    prevGrant := some q
    wipeWait := s.wipeWaitAfter q
    lastGranted := s.lastGrantedAfter q }

/-- The memory arbiter makes a grant where one is due and a request waits (R124, R126); else nothing. -/
def State.grantMemory (s : State) : State :=
  if s.grantDue then
    match s.pickRequester with
    | some q => s.grantTo q
    | none => s
  else s

/-- The end of a unit at the MPC: no unit is in progress. A refresh that waited for it is performed from now on and
stays pending until its end, so that no grant follows at once (R121, R126; log 33). -/
def State.endUnit (s : State) : State := { s with unit := none }

/-- The end of a refresh that is performed, which is while no unit is in progress: it is pending no more (R121; log
33). -/
def State.endRefresh (s : State) : State :=
  match s.unit with
  | none => { s with refreshPending := false }
  | some _ => s

end Sys2Proof.Machine
end

