-- ==== Sys2Proof/Machine/Code.lean ====
section
/-!
DEFINITION. The part's check-bit code (R127): a free value among all codes with the distances that R127 states
(log 6), and the proof, by an example, that there are such codes.
-/

namespace Sys2Proof.Machine

section Example

/-- The columns of the example: 32 of the 35 sets of three check bits. -/
def exampleColumns : List (BitVec 7) :=
  [0x07, 0x0B, 0x0D, 0x0E, 0x13, 0x15, 0x16, 0x19, 0x1A, 0x1C, 0x23, 0x25, 0x26, 0x29, 0x2A, 0x2C,
   0x31, 0x32, 0x34, 0x38, 0x43, 0x45, 0x46, 0x49, 0x4A, 0x4C, 0x51, 0x52, 0x54, 0x58, 0x61, 0x62]

/-- The check bits of the example, over the data bits in the list: the sum of the columns of those that are 1. -/
def exampleChecks (d : Word) : List Nat → BitVec 7
  | [] => 0
  | i :: l => (if d.getLsbD i then exampleColumns.getD i 0 else 0) ^^^ exampleChecks d l

/-- The sums of `k` columns of the list. -/
def columnSums : List Nat → Nat → List (BitVec 7)
  | _, 0 => [0]
  | [], _ + 1 => []
  | i :: l, k + 1 => (columnSums l k).map (exampleColumns.getD i 0 ^^^ ·) ++ columnSums l (k + 1)

/-- How many of seven bits are 1. -/
def checkCount (c : BitVec 7) : Nat := (List.range 7).countP fun i => c.getLsbD i

/-- How many of 32 bits are 1. -/
def dataCount (d : Word) : Nat := (List.range 32).countP fun i => d.getLsbD i

theorem exampleChecks_xor (d e : Word) (l : List Nat) :
    exampleChecks (d ^^^ e) l = exampleChecks d l ^^^ exampleChecks e l := by
  induction l with
  | nil => simp [exampleChecks]
  | cons i l ih =>
    simp only [exampleChecks, ih, BitVec.getLsbD_xor]
    generalize exampleColumns.getD i 0 = c
    cases d.getLsbD i <;> cases e.getLsbD i <;> simp
    · ac_rfl
    · ac_rfl
    · rw [show c ^^^ exampleChecks d l ^^^ (c ^^^ exampleChecks e l) =
        (c ^^^ c) ^^^ (exampleChecks d l ^^^ exampleChecks e l) by ac_rfl]
      simp

/-- Data with `k` bits set has the sum of `k` columns for check bits. -/
theorem exampleChecks_mem (d : Word) (l : List Nat) :
    exampleChecks d l ∈ columnSums l (l.countP fun i => d.getLsbD i) := by
  induction l with
  | nil => simp [exampleChecks, columnSums]
  | cons i l ih =>
    cases h : d.getLsbD i
    · rw [List.countP_cons_of_neg (by simp [h])]
      cases hk : l.countP fun i => d.getLsbD i with
      | zero => rw [hk] at ih; simpa [exampleChecks, h, columnSums] using ih
      | succ k => rw [hk] at ih; simp [exampleChecks, h, columnSums, ih]
    · rw [List.countP_cons_of_pos (by simpa using h)]
      simp only [exampleChecks, h, if_true, columnSums, List.mem_append, List.mem_map]
      exact Or.inl ⟨_, ih, rfl⟩

/-- The bits of a word and its check bits are those of each. -/
theorem bitCount_append (c : BitVec 7) (d : Word) : bitCount (c ++ d) = checkCount c + dataCount d := by
  have h : List.range 39 = List.range 32 ++ (List.range 7).map (32 + ·) := by decide
  rw [bitCount, h, List.countP_append, List.countP_map, Nat.add_comm]
  have hb (i : Nat) : BitVec.getLsbD (w := 39) (c ++ d) i = if i < 32 then d.getLsbD i else c.getLsbD (i - 32) :=
    BitVec.getLsbD_append
  congr 1
  · exact List.countP_congr fun i _ => by simp [hb]
  · exact List.countP_congr fun i hi => by simp [hb, List.mem_range.mp hi]

theorem distance_append (c e : BitVec 7) (x y : Word) :
    distance (c ++ x) (e ++ y) = checkCount (c ^^^ e) + dataCount (x ^^^ y) := by
  rw [← bitCount_append]
  exact congrArg bitCount BitVec.xor_append

theorem dataCount_pos (d : Word) (h : d ≠ 0) : 1 ≤ dataCount d := by
  by_contra hc
  refine h (BitVec.eq_of_getLsbD_eq fun i hi => ?_)
  have h0 : (List.range 32).countP (fun i => d.getLsbD i) = 0 := by unfold dataCount at hc; omega
  simpa using List.countP_eq_zero.mp h0 i (List.mem_range.mpr hi)

/-- An odd number of seven bits are 1. -/
def oddBits (c : BitVec 7) : Bool := (List.range 7).foldr (fun i b => c.getLsbD i ^^ b) false

theorem oddBits_xor (c e : BitVec 7) : oddBits (c ^^^ e) = (oddBits c ^^ oddBits e) := by
  unfold oddBits
  induction List.range 7 with
  | nil => rfl
  | cons i l ih =>
    rw [List.foldr_cons, List.foldr_cons, List.foldr_cons, ih, BitVec.getLsbD_xor]
    generalize List.foldr _ _ l = x
    generalize List.foldr _ _ l = y
    revert x y
    cases c.getLsbD i <;> cases e.getLsbD i <;> decide

/-- The example's columns have an odd number of bits each. -/
theorem oddBits_columnSums (l : List Nat) (hl : ∀ i ∈ l, i < 32) (k : Nat) :
    ∀ c ∈ columnSums l k, oddBits c = decide (k % 2 = 1) := by
  have hcol : ∀ i < 32, oddBits (exampleColumns.getD i 0) = true := by decide
  induction l generalizing k with
  | nil => cases k <;> simp [columnSums]; decide
  | cons i l ih =>
    have hi := hcol i (hl i (by simp))
    have ih := ih fun j hj => hl j (by simp [hj])
    cases k with
    | zero => simp [columnSums]; decide
    | succ k =>
      simp only [columnSums, List.mem_append, List.mem_map]
      rintro c (⟨e, he, rfl⟩ | hc)
      · rw [oddBits_xor, hi, ih k e he]
        rcases Nat.mod_two_eq_zero_or_one k with h | h <;> simp [Nat.add_mod, h]
      · exact ih _ c hc

/-- How many bits are 1 at least, by their number being odd or even. -/
theorem le_checkCount : ∀ c : BitVec 7,
    (oddBits c = true → 1 ≤ checkCount c) ∧ (oddBits c = false → c ≠ 0 → 2 ≤ checkCount c) := by
  decide +kernel

theorem oddBits_sum (k : Nat) (c : BitVec 7) (h : c ∈ columnSums (List.range 32) k) :
    oddBits c = decide (k % 2 = 1) :=
  oddBits_columnSums _ (fun _ hi => List.mem_range.mp hi) k c h

/-- Single columns are no single check bits, and none is the example's poison mark. -/
theorem columns_one : ∀ c ∈ columnSums (List.range 32) 1, 3 ≤ checkCount c ∧ c ^^^ 0x7F ≠ 0 := by
  decide +kernel

/-- No two columns are the same. -/
theorem columns_two : ∀ c ∈ columnSums (List.range 32) 2, c ≠ 0 := by
  have h : (columnSums (List.range 32) 2).all (fun c => c.toNat != 0) = true := by decide +kernel
  rintro c hc rfl
  exact absurd (List.all_eq_true.mp h 0 hc) (by decide)

/-- A code with the distances of R127; the part's own is another, or this one: nothing rests on which. -/
def exampleCode : CheckCode where
  checkBits d := exampleChecks d (List.range 32)
  poisonMark := (0x7F : BitVec 7) ++ (0 : Word)
  apart d e h := by
    rw [distance_append, ← exampleChecks_xor]
    have hp := dataCount_pos (d ^^^ e) (by simpa [BitVec.xor_eq_zero_iff] using h)
    have hm := exampleChecks_mem (d ^^^ e) (List.range 32)
    change _ ∈ columnSums _ (dataCount (d ^^^ e)) at hm
    by_cases h4 : 4 ≤ dataCount (d ^^^ e)
    · omega
    · have hc : dataCount (d ^^^ e) = 1 ∨ dataCount (d ^^^ e) = 2 ∨ dataCount (d ^^^ e) = 3 := by omega
      rcases hc with hc | hc | hc <;> rw [hc] at hm ⊢
      · exact Nat.add_le_add_right (columns_one _ hm).1 1
      · exact Nat.add_le_add_right ((le_checkCount _).2 (oddBits_sum 2 _ hm) (columns_two _ hm)) 2
      · exact Nat.add_le_add_right ((le_checkCount _).1 (oddBits_sum 3 _ hm)) 3
  poisonApart d := by
    rw [distance_append, show d ^^^ (0 : Word) = d from BitVec.xor_zero]
    have hm := exampleChecks_mem d (List.range 32)
    change _ ∈ columnSums _ (dataCount d) at hm
    by_cases h3 : 3 ≤ dataCount d
    · omega
    · have hc : dataCount d = 0 ∨ dataCount d = 1 ∨ dataCount d = 2 := by omega
      rcases hc with hc | hc | hc <;> rw [hc] at hm ⊢
      · have h0 : exampleChecks d (List.range 32) = 0 := by simpa [columnSums] using hm
        rw [h0]; decide
      · refine Nat.add_le_add_right ((le_checkCount _).2 ?_ (columns_one _ hm).2) 1
        rw [oddBits_xor, oddBits_sum 1 _ hm]; decide
      · refine Nat.add_le_add_right ((le_checkCount _).1 ?_) 2
        rw [oddBits_xor, oddBits_sum 2 _ hm]; decide

end Example

/-- The part's code (R127, log 6). -/
def partCode : CheckCode := @Config.checkCode ⟨exampleCode⟩

/-- The valid word of some data: the data on bits 31:0, its check bits on bits 38:32 (R127, R178). -/
def validWord (d : Word) : Bits39 := partCode.checkBits d ++ d

/-- The pattern reserved as the poison mark (R127). -/
def poisonMark : Bits39 := partCode.poisonMark

/-- The valid word that a pattern becomes with its bit `i` changed, if it becomes one, by its data. -/
def validAfter (x : Bits39) (i : Nat) : Option Word :=
  let y := x ^^^ BitVec.twoPow 39 i
  let d := y.extractLsb' 0 32
  if y = validWord d then some d else none

/-- The data of the valid word that differs from a pattern in exactly one bit, if there is one (R128). -/
def nearValid (x : Bits39) : Option Word := (List.range 39).findSome? (validAfter x)

end Sys2Proof.Machine
end

