-- ==== Sys2Proof/Machine/Bank.lean ====
section
/-!
DEFINITION. The SDRAM bank behind the memory port: stored words by address, the outcomes of the check-bit
unit (R127, R128), and the words that the units of R122 read and write. A read takes first what the bank
changed on its own (log 7); what was changed stays changed until the word is written (R56, R128).
-/

namespace Sys2Proof.Machine

/-- The stored word listed at an address. -/
def Memory.find : Memory → Nat → Option StoredWord
  | [], _ => none
  | (b, w) :: m, a => if b = a then some w else Memory.find m a

/-- The bank with a word stored at an address; the list stays in rising order. -/
def Memory.put : Memory → Nat → StoredWord → Memory
  | [], a, w => [(a, w)]
  | (b, x) :: m, a, w =>
    if a < b then (a, w) :: (b, x) :: m
    else if a = b then (a, w) :: m
    else (b, x) :: Memory.put m a w

/-- The canonical form: addresses strictly rising. An unlisted word is a free value, which no listed word
equals (log 5). -/
def Memory.wf : Memory → Bool
  | [] => true
  | [_] => true
  | x :: y :: m => decide (x.1 < y.1) && Memory.wf (y :: m)

/-- What the word at an address holds: as listed, or undefined since power-on (R120, log 5). -/
def Memory.stored (epoch : Nat) (m : Memory) (a : Nat) : StoredWord :=
  (Memory.find m a).getD (Config.powerOnWord epoch a)

/-- The 39 bits that the part writes for a content: a valid word, or the poison mark (R127). -/
def writtenBits : Option Word → Bits39
  | some d => validWord d
  | none => poisonMark

/-- The 39 bits that a stored word puts on the data pins (R178, log 6): what the part wrote, a valid word with
its data on DQ[31:0] and its check bits on DQ[38:32] or the poison mark, with the bits that differ since. -/
def dqBits (w : StoredWord) : Bits39 := writtenBits w.content ^^^ w.errors

/-- DQ[31:0], the data bits of a stored word (R178). -/
def dqData (w : StoredWord) : Word := (dqBits w).extractLsb' 0 32

/-- DQ[38:32], the check bits of a stored word (R178). -/
def dqCheck (w : StoredWord) : BitVec 7 := (dqBits w).extractLsb' 32 7

/-- The check-bit unit's outcome for a stored word (R128), by how many bits differ from what was written: with
none and one the table's row follows from the distances of R127; with two it is read from the pattern, which can
lie within one bit of the poison mark, or of a valid word where the poison mark was written (log 8); with three or
more any outcome may be given, a free value (log 9). -/
def outcomeOf (w : StoredWord) : WordRead :=
  match w.content, bitCount w.errors with
  | some d, 0 => .clean d
  | some d, 1 => .corrected d
  | some _, 2 => if distance (dqBits w) poisonMark ≤ 1 then .poisoned else .uncorrectable
  | none, 0 => .poisoned
  | none, 1 => .poisoned
  | none, 2 =>
    match nearValid (dqBits w) with
    | some d => .corrected d
    | none => .uncorrectable
  | c, _ => Config.manyErrors c w.errors

/-- The bank with some bits of one word changed by the bank itself (log 7). -/
def Memory.disturb (epoch : Nat) (m : Memory) (a : Nat) (changed : Bits39) : Memory :=
  if changed = 0 then m
  else
    let w := Memory.stored epoch m a
    Memory.put m a { w with errors := w.errors ^^^ changed }

/-- What reading the word at an address gives. -/
def Memory.readWord (epoch : Nat) (m : Memory) (a : Nat) : WordRead := outcomeOf (Memory.stored epoch m a)

/-- The word at an address written with fresh check bits (R127, R130). -/
def Memory.writeWord (m : Memory) (a : Nat) (d : Word) : Memory :=
  Memory.put m a { content := some d, errors := 0 }

/-- The word at an address written with the poison mark (R133). -/
def Memory.writePoison (m : Memory) (a : Nat) : Memory := Memory.put m a { content := none, errors := 0 }

/-- A write to one word and, where it is mirrored, to a second (R132). -/
def Memory.writeBoth (m : Memory) (a : Nat) (mirror : Option Nat) (d : Word) : Memory :=
  let m1 := Memory.writeWord m a d
  match mirror with
  | none => m1
  | some b => Memory.writeWord m1 b d

/-- The outcome is CLEAN. -/
def isCleanRead : WordRead → Bool
  | .clean _ => true
  | _ => false

/-- The data delivered with CLEAN and CORRECTED (R128). -/
def deliveredData : WordRead → Option Word
  | .clean d => some d
  | .corrected d => some d
  | .uncorrectable => none
  | .poisoned => none

/-- `n` words from an address on written with zero data (wipe block, R134). -/
def Memory.wipeWords : Memory → Nat → Nat → Memory
  | m, _, 0 => m
  | m, a, n + 1 => Memory.wipeWords (Memory.writeWord m a 0) (a + 1) n

/-- Words from an address on read, one for each entry of the changed bits (verify block, R134); tells
whether any outcome was other than CLEAN. -/
def Memory.verifyWords (epoch : Nat) : Memory → Nat → List Bits39 → Memory × Bool
  | m, _, [] => (m, false)
  | m, a, c :: cs =>
    let m1 := Memory.disturb epoch m a c
    let bad := !isCleanRead (Memory.readWord epoch m1 a)
    let r := Memory.verifyWords epoch m1 (a + 1) cs
    (r.1, bad || r.2)

/-- Words copied in ascending order (block copy, R133): good data with fresh check bits, the poison mark
for a word that could not be read; tells whether any word was written poisoned. -/
def Memory.copyWords (epoch : Nat) : Memory → Nat → Nat → List Bits39 → Memory × Bool
  | m, _, _, [] => (m, false)
  | m, a, b, c :: cs =>
    let m1 := Memory.disturb epoch m a c
    match deliveredData (Memory.readWord epoch m1 a) with
    | some d => Memory.copyWords epoch (Memory.writeWord m1 b d) (a + 1) (b + 1) cs
    | none => ((Memory.copyWords epoch (Memory.writePoison m1 b) (a + 1) (b + 1) cs).1, true)

end Sys2Proof.Machine
end

