-- ==== Sys2Proof/Machine/Ops.lean ====
section
/-!
DEFINITION. The shared operations: views and usage counts (R17, R19), the finish of a command (R68), drains
(R92 to R94, R173), extents leaving a window and the abandonment of a relocation (R33, R149), closing a
window (R89 to R91, R166), the port reset (R60, R70, R164, R165), and what the engines do at once (R29, R41,
R123, R139, R140; log 2).
-/

namespace Sys2Proof.Machine

/-- What a meaning answers. -/
abbrev Result := Host.Outcome State Fault Refusal

/-! ### Views and counts -/

/-- A view of an agent: a grant slot that is ACTIVE or REVOKED, and the range it occupies (01 "Which slots
are views", R13). -/
structure View where
  window  : WSlot
  slot    : GSlot
  revoked : Bool
  rights  : Rights
  base    : Nat
  len     : Nat
  deriving DecidableEq, Repr

/-- Length in extents of the window's views: the size while OPEN, the length at the close afterwards
(R13). -/
def Window.viewLen (w : Window) : Nat :=
  match w.state with
  | .opened => w.extents.length
  | .vacant | .draining | .retiring => w.closedLen

/-- The agent of a grant slot, present where it is not VACANT (R9). -/
def Grant.agent : Grant → Option Port
  | .vacant => none
  | .offered a _ _ => some a
  | .active a _ _ => some a
  | .revoked a _ _ => some a

/-- The slot is a view. -/
def Grant.isView : Grant → Bool
  | .active _ _ _ | .revoked _ _ _ => true
  | .vacant | .offered _ _ _ => false

/-- The slot is OFFERED. -/
def Grant.isOffered : Grant → Bool
  | .offered _ _ _ => true
  | .vacant | .active _ _ _ | .revoked _ _ _ => false

/-- The slot is REVOKED. -/
def Grant.isRevoked : Grant → Bool
  | .revoked _ _ _ => true
  | .vacant | .offered _ _ _ | .active _ _ _ => false

/-- The slot is ACTIVE. -/
def Grant.isActive : Grant → Bool
  | .active _ _ _ => true
  | .vacant | .offered _ _ _ | .revoked _ _ _ => false

/-- The slot is the agent's. -/
def Grant.isOf (g : Grant) (a : Port) : Bool := decide (g.agent = some a)

/-- Some grant slot of the window passes a test. -/
def Window.anyGrant (w : Window) (test : Grant → Bool) : Bool :=
  (List.finRange 6).any fun k => test (w.grant k)

/-- A view of the window remains. -/
def Window.hasView (w : Window) : Bool := w.anyGrant Grant.isView

/-- The view of agent `a` in grant slot `k` of window slot `w`, if there is one. -/
def State.viewAt (s : State) (a : Port) (w : WSlot) (k : GSlot) : Option View :=
  match (s.window w).grant k with
  | .active b r base =>
    if b = a then some { window := w, slot := k, revoked := false, rights := r, base := base,
                         len := (s.window w).viewLen } else none
  | .revoked b r base =>
    if b = a then some { window := w, slot := k, revoked := true, rights := r, base := base,
                         len := (s.window w).viewLen } else none
  | .vacant => none
  | .offered _ _ _ => none

/-- The views of an agent, by window and grant slot. -/
def State.viewsOf (s : State) (a : Port) : List View :=
  (List.finRange 128).flatMap fun w => (List.finRange 6).filterMap fun k => s.viewAt a w k

/-- Views held (R17). -/
def State.viewsHeld (s : State) (a : Port) : Nat := (s.viewsOf a).length

/-- The OPEN windows an agent owns. -/
def State.ownedBy (s : State) (a : Port) : List WSlot :=
  (List.finRange 128).filter fun w =>
    decide ((s.window w).state = .opened) && decide ((s.window w).owner = some a)

/-- Owned windows (R17). -/
def State.ownedWindows (s : State) (a : Port) : Nat := (s.ownedBy a).length

/-- Owned extents (R17). -/
def State.ownedExtents (s : State) (a : Port) : Nat :=
  ((s.ownedBy a).map fun w => (s.window w).extents.length).sum

/-- The offers to an agent in ascending window slot and grant slot (R117). -/
def State.offersTo (s : State) (a : Port) : List (WSlot × GSlot) :=
  (List.finRange 128).flatMap fun w =>
    ((List.finRange 6).filter fun k =>
      ((s.window w).grant k).isOffered && ((s.window w).grant k).isOf a).map fun k => (w, k)

/-- The agent's grant slot in a window (R10: at most one). -/
def Window.slotOf (w : Window) (a : Port) : Option GSlot :=
  (List.finRange 6).find? fun k => (w.grant k).isOf a

/-- The range of a view covers an offset (R13). -/
def State.covers (s : State) (v : View) (offset : Nat) : Bool :=
  decide (v.base ≤ offset) && decide (offset < v.base + v.len * s.extentBytes)

/-- A range of view space meets a view's range (R14). -/
def State.meets (s : State) (base len : Nat) (v : View) : Bool :=
  decide (base < v.base + v.len * s.extentBytes) && decide (v.base < base + len * s.extentBytes)

/-- A range ends at or below 0x0FFF_FFFF (R14). -/
def State.fits (s : State) (base len : Nat) : Bool :=
  decide (base + len * s.extentBytes ≤ viewSpaceBytes)

/-- A base below 0x1000_0000 and a multiple of the extent size (R13, R78, R101). -/
def State.baseOk (s : State) (base : Nat) : Bool :=
  decide (base < viewSpaceBytes) && decide (base % s.extentBytes = 0)

/-- The access of port `p` is in flight through window slot `w` (R22). -/
def State.inFlight (s : State) (p : Port) (w : WSlot) : Bool :=
  match (s.port p).access.record with
  | none => false
  | some a => decide (a.handle.slot = w)

/-- The ports in flight through a window (R86, R91). -/
def State.portsInFlight (s : State) (w : WSlot) : PortSet := PortSet.of fun p => s.inFlight p w

/-- An access re-translated at its port's take of a swap (R55, R147): window, ordinal and byte address stay, and
the extent is the entry of the window's extent list at that ordinal, or the former target `tgt` where the list
has no such entry any more (log 31). -/
def State.retranslate (s : State) (tgt : Extent) (a : AccessRec) : AccessRec :=
  { a with ext := ((s.window a.handle.slot).extents[a.ordinal]?).getD tgt }

/-! ### The finish of a command -/

/-- The finish of the command in port `p`'s slot: status and results written, DONE added (R68, R75). -/
def State.finish (s : State) (p : Port) (st : Status) (res : Words4) : State :=
  (s.updPort p fun u => { u with slot := { u.slot with state := .done st, res := res } }).addAttention p .done

/-- The end of the hold wait on port `q` (R161): the HOLD is finished with OK if its slot is still live. -/
def State.endHoldWait (s : State) (q : Port) : State :=
  match (s.port q).holdWait with
  | .absent => s
  | .present live =>
    let s1 := s.updPort q fun u => { u with holdWait := .absent }
    if live then s1.finish s1.supervisor .ok Words4.zero else s1

/-! ### Drains -/

/-- Retiring extents become DIRTY and join the Wipe List tail in the order given (R38, R39). -/
def State.makeDirty (s : State) (l : List Extent) : State :=
  { s.mapExtents (fun e x => if e ∈ l then { x with st := .dirty } else x) with
    wipeList := s.wipeList ++ l }

/-- The engine comes to rest if it is ABANDONING under this drain (R151, R173); what it starts or waits
for next is `rleSettle`. -/
def State.restIf (s : State) (owner : DrainOwner) : State :=
  match s.rle with
  | .abandoning _ _ _ _ o => if o = owner then { s with rle := .idle } else s
  | .idle | .waiting | .copying _ _ _ | .cutover _ _ _ _ _ _ _ => s

/-- The window record at the end of its drain (R94): OPEN stays OPEN; DRAINING becomes RETIRING, or VACANT
with its generation increased where no view remains (R6). -/
def Window.afterDrain (w : Window) : Window :=
  match w.state with
  | .draining =>
    if w.hasView then { w with state := .retiring, drain := DrainSet.empty, retiring := [] }
    else Window.vacantAt (w.gen + 1)
  | .vacant | .opened | .retiring => { w with drain := DrainSet.empty, retiring := [] }

/-- The end of the drain of the window in slot `w` (R94). -/
def State.endDrain (s : State) (w : WSlot) : State :=
  let s1 := s.makeDirty (s.window w).retiring
  let s2 := match (s.window w).owner with
    | some o => s1.addAttention o .drained
    | none => s1
  (s2.updWindow w Window.afterDrain).restIf (.window w)

/-- The end of the drain of CLEAR (R173). -/
def State.endClearDrain (s : State) : State :=
  match s.clearRec with
  | none => s
  | some c =>
    let s1 := (s.makeDirty c.retiring).mapWindows fun w x =>
      if w ∈ c.closed then Window.vacantAt (x.gen + 1) else x
    let s2 := State.restIf { s1 with clearRec := none } .clear
    if c.slotLive then s2.finish s2.supervisor .ok (Words4.one (numWord c.retiring.length)) else s2

/-- The window in slot `w` is under CLEAR (R171). -/
def State.underClear (s : State) (w : WSlot) : Bool :=
  match s.clearRec with
  | none => false
  | some c => decide (w ∈ c.closed)

/-- A member leaves the drain set of CLEAR; the last one ends the drain (R173). -/
def State.leaveClear (s : State) (m : Member) : State :=
  match s.clearRec with
  | none => s
  | some c =>
    if c.drain.has m then
      let s1 := { s with clearRec := some { c with drain := c.drain.remove m } }
      if (c.drain.remove m).isEmpty then s1.endClearDrain else s1
    else s

/-- A member leaves the drain set of a window; the last one ends the drain (R93, R94). -/
def State.leaveWindow (s : State) (w : WSlot) (m : Member) : State :=
  if (s.window w).drain.has m then
    let s1 := s.updWindow w fun x => { x with drain := x.drain.remove m }
    if ((s.window w).drain.remove m).isEmpty then s1.endDrain w else s1
  else s

/-- A member's work through the window in slot `w` has ended (R22, R93, R171). -/
def State.leave (s : State) (w : WSlot) (m : Member) : State :=
  if s.underClear w then s.leaveClear m else s.leaveWindow w m

/-! ### Extents leaving a window; abandonment -/

/-- The target of the relocation that is abandoned when these extents leave their window, and whether the
engine has a block in copy (R149, R150): COPYING, or CUTOVER before the swap is taken, with its source
among them. -/
def State.abandoned (s : State) (l : List Extent) : Option (Extent × Bool) :=
  match s.rle with
  | .copying src tgt _ => if src ∈ l then some (tgt, true) else none
  | .cutover _ _ _ _ _ _ (.taken _ _) => none
  | .cutover src tgt _ _ _ _ _ => if src ∈ l then some (tgt, false) else none
  | .idle | .waiting | .abandoning _ _ _ _ _ => none

/-- The engine's record when its relocation is abandoned under a drain (R149). -/
def Rle.abandon (owner : DrainOwner) : Rle → Rle
  | .copying src tgt ptr => .abandoning src tgt ptr true owner
  | .cutover src tgt ptr _ _ _ _ => .abandoning src tgt ptr false owner
  | .idle => .idle
  | .waiting => .waiting
  | .abandoning src tgt ptr b o => .abandoning src tgt ptr b o

/-- The abandonment of the relocation in progress (R149): the target RETIRING, the engine ABANDONING under
`owner`, MOVED to the supervisor, the abandonment handed to every port. -/
def State.abandonRelocation (s : State) (owner : DrainOwner) (tgt : Extent) : State :=
  let s1 := s.updExtent tgt fun x => { x with st := .retiring }
  State.addAttention { s1 with rle := s1.rle.abandon owner, abandonHanded := PortSet.all }
    s1.supervisor .moved

/-- Extents leave the extent list of the window in slot `w`: RETIRING, their Relocation List entries
removed (R33, R85, R89), a relocation whose source is among them abandoned (R87, R149). -/
def State.loseExtents (s : State) (w : WSlot) (l : List Extent) : State :=
  let s1 := s.mapExtents fun e x => if e ∈ l then { x with st := .retiring } else x
  let s2 := { s1 with relocList := s1.relocList.filter fun e => decide (e ∉ l) }
  match s.abandoned l with
  | none => s2
  | some (tgt, _) => s2.abandonRelocation (.window w) tgt

/-- What joins the retiring list when these extents leave: they themselves in order, the target of a
relocation abandoned at this take last (R87, R89). -/
def State.retiringOf (s : State) (l : List Extent) : List Extent :=
  match s.abandoned l with
  | none => l
  | some (tgt, _) => l ++ [tgt]

/-- The target of a relocation abandoned earlier under the pending drain of the window in slot `w`
(R149). -/
def State.waitingTarget (s : State) (w : WSlot) : Option Extent :=
  match s.rle with
  | .abandoning _ tgt _ _ (.window v) => if v = w then some tgt else none
  | .abandoning _ _ _ _ .clear => none
  | .idle | .waiting | .copying _ _ _ | .cutover _ _ _ _ _ _ _ => none

/-- The retiring list of the window in slot `w` after these extents leave it: those of a pending drain, they
themselves, and last the target of a relocation abandoned at either take (R95, log 36). -/
def State.retiringWith (s : State) (w : WSlot) (l : List Extent) : List Extent :=
  (s.window w).retiring.filter (fun e => decide (s.waitingTarget w ≠ some e)) ++ s.retiringOf l ++
    (s.window w).retiring.filter (fun e => decide (s.waitingTarget w = some e))

/-- The drain set formed when these extents leave the window in slot `w`: the ports in flight through it,
and the engine where its abandonment leaves it a block in copy (R86, R91, R150). -/
def State.drainFormed (s : State) (w : WSlot) (l : List Extent) : DrainSet :=
  { ports := s.portsInFlight w,
    rle := match s.abandoned l with
      | none => false
      | some (_, b) => b }

/-- A drain formed empty ends at the take (R86, R91, R94). -/
def State.endDrainIfEmpty (s : State) (w : WSlot) : State :=
  if (s.window w).drain.isEmpty then s.endDrain w else s

/-! ### Closing a window -/

/-- A grant slot at a close (R90, R166): slot 0 VACANT, or REVOKED where the close is by force; an ACTIVE
grantee view REVOKED; an offer VACANT. -/
def Grant.atClose (forced : Bool) (k : GSlot) : Grant → Grant
  | .active a r b => if k = 0 ∧ !forced then .vacant else .revoked a r b
  | .revoked a r b => .revoked a r b
  | .offered _ _ _ => .vacant
  | .vacant => .vacant

/-- Agent `p`'s view of the window becomes REVOKED at a close (R90, R166). -/
def Window.losesView (w : Window) (forced : Bool) (p : Port) : Bool :=
  (List.finRange 6).any fun k =>
    (w.grant k).isActive && (w.grant k).isOf p && !(decide (k = 0) && !forced)

/-- The window holds an offer to agent `p`. -/
def Window.offers (w : Window) (p : Port) : Bool := w.anyGrant fun g => g.isOffered && g.isOf p

/-- The close of the OPEN window in slot `w` (R89 to R91, and R166 where `forced`). `cause` is the port
whose command or reset causes it and receives no VIEWS or OFFERS (R76). -/
def State.closeWindow (s : State) (cause : Port) (forced : Bool) (w : WSlot) : State :=
  let win := s.window w
  let s1 := s.loseExtents w win.extents
  let s2 := s1.addAttentionWhere (fun p => win.losesView forced p && decide (p ≠ cause)) .views
  let s3 := s2.addAttentionWhere (fun p => win.offers p && decide (p ≠ cause)) .offers
  let s4 := s3.updWindow w fun x =>
    { x with
      state := .draining
      extents := []
      closedLen := win.extents.length
      grants := Tab.mapAll x.grants fun k g => g.atClose forced k
      drain := x.drain.union (s.drainFormed w win.extents)
      retiring := s.retiringWith w win.extents }
  s4.endDrainIfEmpty w

/-! ### The engines, at once -/

/-- A BOUND extent becomes MOVING, keeping window, ordinal, count and mark (R139). -/
def Entry.toMoving (x : Entry) : Entry :=
  match x.st with
  | .bound h o => { x with st := .moving h o }
  | .free | .moving _ _ | .target | .retiring | .dirty | .wiping | .quarantined _ => x

/-- The start of a relocation of `src` to `tgt`, the heads of the two lists (R139). -/
def State.startRelocation (s : State) (src tgt : Extent) : State :=
  { (s.updExtent src Entry.toMoving).updExtent tgt (fun x => { x with st := .target }) with
    relocList := s.relocList.tail
    freeList := s.freeList.tail
    rle := .copying src tgt 0 }

/-- An IDLE or WAITING engine starts, waits or goes IDLE as its two lists say (R138 to R140); an engine in
any other phase is left alone. -/
def State.rleSettle (s : State) : State :=
  match s.rle with
  | .idle | .waiting =>
    match s.relocList, s.freeList with
    | [], _ => { s with rle := .idle }
    | _ :: _, [] => { s with rle := .waiting }
    | src :: _, tgt :: _ => s.startRelocation src tgt
  | .copying _ _ _ | .cutover _ _ _ _ _ _ _ | .abandoning _ _ _ _ _ => s

/-- An IDLE Wipe Engine takes the Wipe List head once initialization is complete (R29, R41). -/
def State.wpeTake (s : State) : State :=
  match s.wpe, s.bankReady, s.wipeList with
  | .idle, true, e :: rest =>
    { s.updExtent e (fun x => { x with st := .wiping }) with wipeList := rest, wpe := .writing e 0 }
  | _, _, _ => s

/-- What happens at once after a take: the Relocation Engine starts, the Wipe Engine takes, the memory
arbiter grants (R29, R41, R123, R126, R139, R140; log 2). R126 lets a request presented at the take of a grant
come before or after that grant; here the two engines present first, and the grant is last (log 37). -/
def State.settle (s : State) : State := s.rleSettle.wpeTake.grantMemory

/-! ### The port reset -/

/-- The abort of a slot (R64, R70). Where it is the Supervisor Port's, a HOLD or CLEAR in progress goes on
without a slot (R161, R165, R173). -/
def State.abortSlot (s : State) (p : Port) : State :=
  let s1 := s.updPort p fun u => { u with slot := Slot.cleared }
  if p = s.supervisor then
    { s1.mapPorts (fun _ u =>
        match u.holdWait with
        | .absent => u
        | .present _ => { u with holdWait := .present false }) with
      clearRec := s1.clearRec.map fun c => { c with slotLive := false } }
  else s1

/-- The access of a port at its reset (R60): STALLED is dropped and the drop reported, ISSUED becomes
ORPHANED, IDLE and ORPHANED stay. -/
def State.resetAccess (s : State) (p : Port) : State :=
  match (s.port p).access with
  | .stalled _ a =>
    ((s.updPort p fun u => { u with access := .idle }).leave a.handle.slot (.port p)).endHoldWait p
  | .issued a => s.updPort p fun u => { u with access := .orphaned a }
  | .idle => s
  | .orphaned _ => s

/-- The OPEN windows of an agent in the free order of this reset (R165, log 10). -/
def State.closeOrder (s : State) (p : Port) : List WSlot :=
  (s.ownedBy p).insertionSort fun a b => Config.resetOrder s.freeIdx a ≤ Config.resetOrder s.freeIdx b

/-- Every OPEN window of the agent closed as by CLOSE (R165), one that is left VACANT at the take one generation on
(R6; the model's choice against R1, log 42). -/
def State.closeOwned (s : State) (p cause : Port) : State :=
  { (s.closeOrder p).foldl (fun t w => t.closeWindow cause false w) s with freeIdx := s.freeIdx + 1 }

/-- A window record without agent `p`'s views and offers (R165): a RETIRING window left with no view
returns to VACANT one generation on (R6, R98). R1 says that a port reset leaves every generation unchanged: the
model's choice is to raise that of a slot that returns to VACANT (log 42). -/
def Window.withoutAgent (w : Window) (p : Port) : Window :=
  let v := { w with grants := Tab.mapAll w.grants fun _ g => if g.isOf p then .vacant else g }
  match w.state with
  | .retiring => if v.hasView then v else Window.vacantAt (w.gen + 1)
  | .vacant | .opened | .draining => v

/-- Agent `p` has a grant slot in an OPEN window of owner `o`. -/
def State.sharesWith (s : State) (p o : Port) : Bool :=
  (List.finRange 128).any fun w =>
    decide ((s.window w).state = .opened) && decide ((s.window w).owner = some o) &&
      (s.window w).anyGrant fun g => g.isOf p

/-- The agent's views and offers vacated in every window, GRANTS to the owner of each OPEN one, but to the
port that caused the reset (R76, R112, R165). -/
def State.vacateAgent (s : State) (p cause : Port) : State :=
  (s.addAttentionWhere (fun o => s.sharesWith p o && decide (o ≠ cause)) .grants).mapWindows
    fun _ x => x.withoutAgent p

/-- The reset of port `p` (R60, R70, R164, R165). `cause` is the port whose command causes it, `p` itself
where its ARSTn does. The attention set is emptied last, so that no effect of the reset adds a kind to `p`
(R76). It changes the generation of the slots that it returns to VACANT and of no other (log 42). -/
def State.resetPort (s : State) (p cause : Port) : State :=
  let s1 := (s.abortSlot p).resetAccess p
  let s2 := s1.updPort p fun u => { u with mask := 0, fault := none, response := none }
  let s3 := (s2.closeOwned p cause).vacateAgent p cause
  s3.updPort p fun u => { u with attention := 0 }

/-! ### Commands taken at the Window Directory -/

/-- What a command's own rule gives at its take: a refusal with a status (R72), an effect with results, or
an effect of a command that finishes later (R69). -/
inductive Verdict where
  | refuse (st : Status)
  | finished (s : State) (res : Words4)
  | inProgress (s : State)

/-- The checks in order: the first that fails gives the status (R72). -/
def checks : List (Bool × Status) → Verdict → Verdict
  | [], v => v
  | (ok, st) :: rest, v => if ok then checks rest v else .refuse st

/-- Port `p` is the last-served port (R67). -/
def State.served (s : State) (p : Port) : State := { s with lastServed := p }

/-- WDIR takes the command in port `p`'s slot (R67, R68): due where `p` is the arbiter's choice and the code
is one of the row's; else nothing happens (log 1). A refused command changes nothing but its slot, and the
arbiter's turn (R73). -/
def State.takeCommand (s : State) (p : Port) (isCode : BitVec 8 → Bool) (body : State → Verdict) : Result :=
  if !s.resetn && decide (s.nextCaller = some p) && isCode (s.port p).slot.code then
    match body (s.served p) with
    | .refuse st => .next ((s.served p).finish p st Words4.zero)
    | .finished t res => .next (t.finish p .ok res)
    | .inProgress t =>
      .next (t.updPort p fun u => { u with slot := { u.slot with state := .inProgress } })
  else .next s

/-- The argument words of the command in port `p`'s slot (R66). -/
def State.args (s : State) (p : Port) : Words4 := (s.port p).slot.args

/-- The privilege step (R71, R72). -/
def State.privileged (s : State) (p : Port) : Bool := decide (p = s.supervisor)

end Sys2Proof.Machine
end

