-- ==== Sys2Proof/Machine/Bus.lean ====
section
/-!
DEFINITION. A request at an agent port, from its arrival to its response or its issue (03 sections 3.1 to
3.4, R12, R19, R20, R46 to R55, R62, R63, R65, R66, R74, R77, R142, R174, R176). Each bus row of the table is
one request taken by the port; which row a request belongs to follows from its address, size and direction,
which the port decodes (log 21).
-/

namespace Sys2Proof.Machine

/-- What the answer of a view lookup gives of the view that covers the offset, whose state is the answer's kind
(R19). -/
structure ViewAnswer where
  handle : Handle
  slot   : GSlot
  rights : Rights
  base   : Nat
  deriving DecidableEq, Repr

/-- The answer of a view lookup (R19): no view, a REVOKED view, or an ACTIVE view with the translation of R20. -/
inductive Lookup where
  | noView
  | revoked (v : ViewAnswer)
  | active (v : ViewAnswer) (ordinal : Nat) (ext : Extent) (byteAddr : Nat)
  deriving DecidableEq, Repr

/-- What the Window Directory answers of a view (R19). -/
def State.viewAnswer (s : State) (v : View) : ViewAnswer :=
  { handle := s.handleOf v.window, slot := v.slot, rights := v.rights, base := v.base }

/-- The translation of an offset through an ACTIVE view (R20), by the extent list as it stands: after a swap the
swapped ordinal translates to the former target, before it to the source, as R21 and R147 say; the row of R148
for a view lookup has the two orders the other way round (log 38). An offset past the extent list, which a view
of an OPEN window never covers, is no view (log 34). -/
def State.translate (s : State) (v : View) (offset : Nat) : Lookup :=
  match (s.window v.window).extents[(offset - v.base) / s.extentBytes]? with
  | none => .noView
  | some e =>
    .active (s.viewAnswer v) ((offset - v.base) / s.extentBytes) e ((offset - v.base) % s.extentBytes)

/-- The view lookup (R19): the agent's view that covers the offset. -/
def State.lookup (s : State) (p : Port) (offset : Nat) : Lookup :=
  match (s.viewsOf p).find? fun v => s.covers v offset with
  | none => .noView
  | some v => if v.revoked then .revoked (s.viewAnswer v) else s.translate v offset

/-- The Relocation Engine's answer at admission (R53, R142). -/
inductive Answer where
  | go
  | stall (cause : StallCause)
  deriving DecidableEq, Repr

/-- R142: stall with cause BLOCK for the source's block in copy, with cause CUTOVER for the source in
CUTOVER, go otherwise. -/
def Rle.answer (r : Rle) (e : Extent) (block : Nat) : Answer :=
  match r with
  | .copying src _ ptr => if e = src ∧ block = ptr then .stall .block else .go
  | .cutover src _ _ _ _ _ _ => if e = src then .stall .cutover else .go
  | .idle => .go
  | .waiting => .go
  | .abandoning _ _ _ _ _ => .go

/-- The target of a relocation whose swap the port has taken already, while other ports have not yet taken or
acknowledged it (R146). -/
def Rle.targetTakenBy (r : Rle) (p : Port) : Option Extent :=
  match r with
  | .cutover _ tgt _ _ _ _ (.taken _ handed) => if handed.has p then none else some tgt
  | .cutover _ _ _ _ _ _ .notRequested => none
  | .cutover _ _ _ _ _ _ .requested => none
  | .idle | .waiting | .copying _ _ _ | .abandoning _ _ _ _ _ => none

/-- What an admitted access becomes at the engine's answer (R53): ISSUED, or STALLED with the cause; at a port
that has taken the swap already an answer of stall, CUTOVER issues it at once, re-translated (R147, second row;
log 31). -/
def State.admittedAs (s : State) (p : Port) (a : AccessRec) : Access :=
  match s.rle.answer a.ext (blockOf a.byteAddr) with
  | .go => .issued a
  | .stall .block => .stalled .block a
  | .stall .cutover =>
    match s.rle.targetTakenBy p with
    | none => .stalled .cutover a
    | some tgt => .issued (s.retranslate tgt a)

/-- An admitted access is issued, and then presented to the memory arbiter, or stalled (R47, R53, R123). An
abandonment handed to the port earlier along the engine's path has been taken before the engine's answer (R142,
log 18). -/
def State.admitAccess (s : State) (p : Port) (a : AccessRec) : State :=
  let s1 := { s with abandonHanded := s.abandonHanded.erase p }
  match s.admittedAs p a with
  | .issued b => (s1.updPort p fun u => { u with access := .issued b }).grantMemory
  | .stalled c b => s1.updPort p fun u => { u with access := .stalled c b }
  | .idle => s1
  | .orphaned _ => s1

/-- The access record of an admission, filled from the request and the lookup's answer (R53). -/
def recordOf (r : Request) (handle : Handle) (ordinal : Nat) (e : Extent) (byteAddr : Nat) : AccessRec :=
  { addr := r.addr, op := r.op, size := sizeOf r.size, handle := handle, ordinal := ordinal, ext := e,
    byteAddr := byteAddr }

/-- The view and rights steps (R52). -/
def State.viewSteps (s : State) (p : Port) (r : Request) : State :=
  match s.lookup p r.imageOffset with
  | .noView => s.deny p .miss r none
  | .revoked v => s.deny p .revoked r (some v.handle)
  | .active v ordinal e byteAddr =>
    if v.rights = .read ∧ r.op ≠ .read then s.deny p .rights r (some v.handle)
    else s.admitAccess p (recordOf r v.handle ordinal e byteAddr)

/-- A request to images 0 to 14 through its checks in order (R49). -/
def State.viewRequest (s : State) (p : Port) (r : Request) : State :=
  if r.misaligned then s.deny p .align r none
  else if (s.port p).hold then s.retry p
  else
    match (s.port p).access with
    | .orphaned _ => s.retry p
    | .idle | .stalled _ _ | .issued _ => s.viewSteps p r

/-- An issue (R66): the code recorded, the arguments latched as they stand, the results 0, the slot BUSY,
waiting for the command arbiter. -/
def Slot.issue (x : Slot) (value : Word) : Slot :=
  { x with state := .waiting, code := value.setWidth 8, res := Words4.zero }

/-- Argument word number 1 to 4 of the control image written. -/
def Words4.setArg (a : Words4) (number : Nat) (value : Word) : Words4 :=
  match number with
  | 1 => { a with w0 := value }
  | 2 => { a with w1 := value }
  | 3 => { a with w2 := value }
  | 4 => { a with w3 := value }
  | _ => a

/-- A word write to the control word at an offset (R63, R65, R66, R74, R77, R176). -/
def State.controlStore (s : State) (p : Port) (offset : Nat) (value : Word) : State :=
  let busy := (s.port p).slot.state.busy
  match offset / 4 with
  | 0 =>
    if busy then s.retry p
    else (s.updPort p fun u => { u with slot := u.slot.issue value }).respond p .done none
  | 1 | 2 | 3 | 4 =>
    if busy then s.retry p
    else (s.updPort p fun u =>
      { u with slot := { u.slot with args := u.slot.args.setArg (offset / 4) value } }).respond p .done none
  | 9 =>
    (s.updPort p fun u => { u with attention := u.attention &&& ~~~ value.setWidth 9 }).respond p .done none
  | 10 => (s.updPort p fun u => { u with mask := value.setWidth 9 }).respond p .done none
  | 11 => (s.updPort p fun u => { u with fault := none }).respond p .done none
  | _ => s.respond p .done none

/-- A request to the control image (R49, R50, R65, R176). -/
def State.controlRequest (s : State) (p : Port) (r : Request) : State :=
  if 0x3F < r.imageOffset then s.deny p .aperture r none
  else if !r.alignedWord then s.deny p .align r none
  else
    match r.op with
    | .read => s.respond p .done (some ((s.port p).controlRead r.imageOffset))
    | .write value => s.controlStore p r.imageOffset value

/-- An earlier request of the port is pending: its access is STALLED or ISSUED (R48). -/
def Access.pending : Access → Bool
  | .stalled _ _ | .issued _ => true
  | .idle | .orphaned _ => false

/-- The port can take a request: it is RUNNING with no request pending, and RESETn is not asserted (R48,
R174). -/
def State.canArrive (s : State) (p : Port) : Bool :=
  !s.resetn && !(s.port p).arstn && !(s.port p).access.pending

/-- A request at a port: taken and decoded by its image where the port can take one (R12, R48, R49), else
not sampled (R174, log 13). -/
def State.takeRequest (s : State) (p : Port) (r : Request) : State :=
  if s.canArrive p then
    let s1 := s.updPort p fun u => { u with response := none }
    if r.image = 15 then s1.controlRequest p r else s1.viewRequest p r
  else s

/-- VIEW_SPACE_REQUEST (R49). -/
def execViewSpaceRequest (p : Port) (r : Request) (s : State) : Result := .next (s.takeRequest p r)

/-- CONTROL_IMAGE_REFUSED (R50). -/
def execControlImageRefused (p : Port) (r : Request) (s : State) : Result := .next (s.takeRequest p r)

/-- ATTENTION_WORD_WRITE (R74): a word write at offset 0x24. -/
def execAttentionWordWrite (p : Port) (value : Word) (s : State) : Result :=
  .next (s.takeRequest p (Request.controlWrite 0x24 value))

/-- NOTICE_WORD_WRITE (R77): a word write at offset 0x28. -/
def execNoticeWordWrite (p : Port) (value : Word) (s : State) : Result :=
  .next (s.takeRequest p (Request.controlWrite 0x28 value))

/-- FAULT_RECORD_CLEAR (R63): a word write at offset 0x2C. -/
def execFaultRecordClear (p : Port) (value : Word) (s : State) : Result :=
  .next (s.takeRequest p (Request.controlWrite 0x2C value))

/-- CONTROL_WORD_WRITE (R65, R176); a read of a control word is served here too (log 21). -/
def execControlWordWrite (p : Port) (r : Request) (s : State) : Result := .next (s.takeRequest p r)

/-- COMMAND_ISSUE (R66): a word write at offset 0x00. -/
def execCommandIssue (p : Port) (value : Word) (s : State) : Result :=
  .next (s.takeRequest p (Request.controlWrite 0x00 value))

end Sys2Proof.Machine
end

