-- ==== Sys2Proof/Machine/Supervision.lean ====
section
/-!
DEFINITION. The supervisor commands SET QUOTA to READ POOL (R155, R158 to R170). Each is checked for
privilege first (R71, R72).
-/

namespace Sys2Proof.Machine

/-- A supervisor command: the privilege step, then the command's own checks and effect (R71, R72). -/
def supervisorOnly (p : Port) (s : State) (body : State → Verdict) : Verdict :=
  if s.privileged p then body s else .refuse .noRight

/-- SET QUOTA (R158): agent in ARG0, window quota in ARG1, extent quota in ARG2. -/
def setQuotaVerdict (p : Port) (s : State) : Verdict :=
  match portArg (s.args p).w0 with
  | none => .refuse .badRange
  | some a =>
    checks
      [(decide ((s.args p).w1.toNat ≤ 16), .badRange),
       (decide ((s.args p).w2.toNat ≤ 1024), .badRange)] <|
    .finished
      (s.updAccount a fun x =>
        { x with windowQuota := (s.args p).w1.toNat, extentQuota := (s.args p).w2.toNat })
      Words4.zero

/-- SET QUOTA, code 0x40. -/
def execSetQuota (p : Port) (s : State) : Result :=
  s.takeCommand p (· == 0x40) fun t => supervisorOnly p t (setQuotaVerdict p)

/-- SET RANK (R158): agent in ARG0, rank in ARG1. -/
def setRankVerdict (p : Port) (s : State) : Verdict :=
  match portArg (s.args p).w0 with
  | none => .refuse .badRange
  | some a =>
    match rankArg (s.args p).w1 with
    | none => .refuse .badRange
    | some r => .finished (s.updAccount a fun x => { x with rank := r }) Words4.zero

/-- SET RANK, code 0x41. -/
def execSetRank (p : Port) (s : State) : Result :=
  s.takeCommand p (· == 0x41) fun t => supervisorOnly p t (setRankVerdict p)

/-- The extent is BOUND. -/
def ExtState.isBound : ExtState → Bool
  | .bound _ _ => true
  | .free | .moving _ _ | .target | .retiring | .dirty | .wiping | .quarantined _ => false

/-- The unlisted BOUND extents whose count equals `t`, ascending (R36). -/
def State.reaching (s : State) (t : Nat) : List Extent :=
  Tab.indices s.extents fun e x => x.st.isBound && decide (x.count = t) && decide (e ∉ s.relocList)

/-- Every count above `t` lowered to `t` (R36). -/
def State.lowerCounts (s : State) (t : Nat) : State :=
  s.mapExtents fun _ x => { x with count := min x.count t }

/-- The threshold replaced by `t`, counts lowered, the extents that reach it listed (R36, R159). -/
def State.newThreshold (s : State) (t : Nat) : State :=
  { s.lowerCounts t with threshold := t, relocList := s.relocList ++ (s.lowerCounts t).reaching t }

/-- SET THRESHOLD (R159): the threshold in ARG0. -/
def setThresholdVerdict (p : Port) (s : State) : Verdict :=
  let t := (s.args p).w0.toNat
  checks [(decide (1 ≤ t ∧ t ≤ 15), .badRange)] <|
  .finished (s.newThreshold t).settle
    { w0 := numWord s.threshold, w1 := numWord ((s.lowerCounts t).reaching t).length, w2 := 0, w3 := 0 }

/-- SET THRESHOLD, code 0x42. -/
def execSetThreshold (p : Port) (s : State) : Result :=
  s.takeCommand p (· == 0x42) fun t => supervisorOnly p t (setThresholdVerdict p)

/-- Port `q` held: its flag set and HOLD added (R160). -/
def State.setHold (s : State) (q : Port) : State :=
  (s.updPort q fun u => { u with hold := true }).addAttention q .hold

/-- The effect of a HOLD that passes (R160). -/
def State.holdPort (s : State) (q : Port) : Verdict :=
  if (s.port q).hold then .finished s Words4.zero
  else if (s.port q).access = .idle then .finished (s.setHold q) Words4.zero
  else .inProgress ((s.setHold q).updPort q fun u => { u with holdWait := .present true })

/-- HOLD (R160): port in ARG0, not the Supervisor Port. -/
def holdVerdict (p : Port) (s : State) : Verdict :=
  match portArg (s.args p).w0 with
  | none => .refuse .badRange
  | some q => if q = s.supervisor then .refuse .badRange else s.holdPort q

/-- HOLD, code 0x43. -/
def execHold (p : Port) (s : State) : Result :=
  s.takeCommand p (· == 0x43) fun t => supervisorOnly p t (holdVerdict p)

/-- The effect of a RESUME (R162): the flag cleared, HOLD added if it was set; a hold wait ends with
nothing written, its HOLD having been aborted (R161). -/
def State.resumePort (s : State) (q : Port) : State :=
  let s1 := s.updPort q fun u => { u with hold := false, holdWait := .absent }
  if (s.port q).hold then s1.addAttention q .hold else s1

/-- RESUME (R162): port in ARG0. -/
def resumeVerdict (p : Port) (s : State) : Verdict :=
  match portArg (s.args p).w0 with
  | none => .refuse .badRange
  | some q => .finished (s.resumePort q) Words4.zero

/-- RESUME, code 0x44. -/
def execResume (p : Port) (s : State) : Result :=
  s.takeCommand p (· == 0x44) fun t => supervisorOnly p t (resumeVerdict p)

/-- RESET PORT (R163): port in ARG0, not the Supervisor Port. -/
def resetPortVerdict (p : Port) (s : State) : Verdict :=
  match portArg (s.args p).w0 with
  | none => .refuse .badRange
  | some q =>
    if q = s.supervisor then .refuse .badRange else .finished (s.resetPort q p).settle Words4.zero

/-- RESET PORT, code 0x45. -/
def execResetPort (p : Port) (s : State) : Result :=
  s.takeCommand p (· == 0x45) fun t => supervisorOnly p t (resetPortVerdict p)

/-- FORCE CLOSE (R166): handle in ARG0. -/
def forceCloseVerdict (p : Port) (s : State) : Verdict :=
  match validHandle s (s.args p).w0 with
  | none => .refuse .noWindow
  | some w =>
    checks [(decide ((s.window w).state = .opened), .state)] <|
    .finished (s.closeWindow p true w).settle Words4.zero

/-- FORCE CLOSE, code 0x46. -/
def execForceClose (p : Port) (s : State) : Result :=
  s.takeCommand p (· == 0x46) fun t => supervisorOnly p t (forceCloseVerdict p)

/-- An extent joins the Relocation List tail (R32). -/
def State.listForRelocation (s : State) (e : Extent) : State := { s with relocList := s.relocList ++ [e] }

/-- MIGRATE (R155, R167): extent in ARG0. -/
def migrateVerdict (p : Port) (s : State) : Verdict :=
  match extentArg (s.args p).w0 with
  | none => .refuse .badRange
  | some e =>
    checks [((s.entry e).st.isBound, .state), (decide (e ∉ s.relocList), .duplicate)] <|
    .finished (s.listForRelocation e).settle Words4.zero

/-- MIGRATE, code 0x47. -/
def execMigrate (p : Port) (s : State) : Result :=
  s.takeCommand p (· == 0x47) fun t => supervisorOnly p t (migrateVerdict p)

/-- An extent enters the Quarantine Set: QUARANTINED is added at the Supervisor Port (R30). -/
def State.enterQuarantine (s : State) (e : Extent) (c : Cause) : State :=
  (s.updExtent e fun x => { x with st := .quarantined c }).addAttention s.supervisor .quarantined

/-- The effect of a QUARANTINE that passes (R168): the extent leaves its list. -/
def State.quarantineExtent (s : State) (e : Extent) : State :=
  { s.enterQuarantine e .supervisor with
    freeList := s.freeList.filter fun x => decide (x ≠ e)
    wipeList := s.wipeList.filter fun x => decide (x ≠ e) }

/-- QUARANTINE (R31, R168): extent in ARG0. -/
def quarantineVerdict (p : Port) (s : State) : Verdict :=
  match extentArg (s.args p).w0 with
  | none => .refuse .badRange
  | some e =>
    checks [(decide ((s.entry e).st = .free ∨ (s.entry e).st = .dirty), .state)] <|
    .finished (s.quarantineExtent e) Words4.zero

/-- QUARANTINE, code 0x48. -/
def execQuarantine (p : Port) (s : State) : Result :=
  s.takeCommand p (· == 0x48) fun t => supervisorOnly p t (quarantineVerdict p)

/-- The extent is QUARANTINED. -/
def ExtState.isQuarantined : ExtState → Bool
  | .quarantined _ => true
  | .free | .bound _ _ | .moving _ _ | .target | .retiring | .dirty | .wiping => false

/-- RESTORE (R31, R168): extent in ARG0; it becomes DIRTY at the Wipe List tail, its count and mark kept. -/
def restoreVerdict (p : Port) (s : State) : Verdict :=
  match extentArg (s.args p).w0 with
  | none => .refuse .badRange
  | some e =>
    checks [((s.entry e).st.isQuarantined, .state)] <|
    .finished (s.makeDirty [e]).settle Words4.zero

/-- RESTORE, code 0x49. -/
def execRestore (p : Port) (s : State) : Result :=
  s.takeCommand p (· == 0x49) fun t => supervisorOnly p t (restoreVerdict p)

/-- The window handle and ordinal of an extent as fields, 0 outside BOUND and MOVING (R169, R177). -/
def ExtState.placeFields : ExtState → Nat × Nat
  | .bound h o => (h.word.toNat, o)
  | .moving h o => (h.word.toNat, o)
  | .free | .target | .retiring | .dirty | .wiping | .quarantined _ => (0, 0)

/-- The results of READ EXTENT (R169, R177). -/
def State.extentWords (s : State) (e : Extent) : Words4 :=
  let x := s.entry e
  { w0 := packFields [(0, 3, x.st.code), (8, 4, x.count), (12, 1, (decide (e ∈ s.relocList)).toNat),
      (13, 1, x.poisoned.toNat), (16, 2, x.st.causeCode)]
    w1 := packFields [(0, 16, x.st.placeFields.1), (16, 7, x.st.placeFields.2)]
    w2 := packFields [(0, 4, s.threshold)]
    w3 := 0 }

/-- READ EXTENT (R169): extent in ARG0. -/
def readExtentVerdict (p : Port) (s : State) : Verdict :=
  match extentArg (s.args p).w0 with
  | none => .refuse .badRange
  | some e => .finished s (s.extentWords e)

/-- READ EXTENT, code 0x4A. -/
def execReadExtent (p : Port) (s : State) : Result :=
  s.takeCommand p (· == 0x4A) fun t => supervisorOnly p t (readExtentVerdict p)

/-- The size of the Quarantine Set: the extents in state QUARANTINED (R25, R30). -/
def State.quarantineSize (s : State) : Nat := (Tab.indices s.extents fun _ x => x.st.isQuarantined).length

/-- The Wipe Engine's current extent and block pointer, 0 in IDLE (R40, R170). -/
def Wpe.fields : Wpe → Nat × Nat
  | .idle => (0, 0)
  | .writing e b => (e.val, b)
  | .verifying e b _ => (e.val, b)

/-- Source, target and copy pointer of the Relocation Engine, 0 in IDLE and WAITING (R137, R170). -/
def Rle.fields (r : Rle) : Nat × Nat × Nat :=
  match r.relocation with
  | none => (0, 0, 0)
  | some (src, tgt, ptr) => (src.val, tgt.val, ptr)

/-- The results of READ POOL (R170, R177). -/
def State.poolWords (s : State) : Words4 :=
  { w0 := packFields [(0, 11, s.freeList.length), (16, 11, s.wipeList.length)]
    w1 := packFields [(0, 11, s.quarantineSize), (16, 11, s.relocList.length)]
    w2 := packFields [(0, 3, s.rle.code), (4, 10, s.rle.fields.1), (14, 10, s.rle.fields.2.1),
      (24, 2, s.wpe.code)]
    w3 := packFields [(0, 11, s.rle.fields.2.2), (11, 10, s.wpe.fields.1), (21, 10, s.wpe.fields.2)] }

/-- READ POOL, code 0x4B (R170). -/
def execReadPool (p : Port) (s : State) : Result :=
  s.takeCommand p (· == 0x4B) fun t => supervisorOnly p t fun u => .finished u u.poolWords

end Sys2Proof.Machine
end

