-- ==== Sys2Proof/Machine/Clearing.lean ====
section
/-!
DEFINITION. CLEAR and its drain (R39, R152, R171 to R173), and the rows that stand for the ends of drains and
of a hold wait: DRAIN_END, CLEAR_DRAIN_END, HOLD_FINISH. What empties a drain set or makes a held port idle
performs that end in its own step (log 2); the rows perform it in a state where one is due.
-/

namespace Sys2Proof.Machine

/-- A port at CLEAR (R172 item 1): its slot aborted, attention set and fault record emptied. A command that waits in
the slot is dropped (R70), also an ACCEPT or a DECLINE, for which the table of R110 says NO_OFFER (log 41). -/
def PortUnit.clear (u : PortUnit) : PortUnit :=
  { u with slot := Slot.cleared, attention := 0, fault := none }

/-- A window at CLEAR (R171, R172 item 2): DRAINING with every grant slot VACANT, its drain set and retiring
list emptied, its owner recorded. -/
def Window.clear (w : Window) : Window :=
  match w.state with
  | .vacant => w
  | .opened | .draining | .retiring =>
    { w with state := .draining, extents := [], closedLen := 0, grants := Vector.replicate 6 .vacant,
             drain := DrainSet.empty, retiring := [] }

/-- An extent at CLEAR (R39): BOUND, MOVING and TARGET become RETIRING. -/
def Entry.clear (x : Entry) : Entry :=
  match x.st with
  | .bound _ _ | .moving _ _ | .target => { x with st := .retiring }
  | .free | .retiring | .dirty | .wiping | .quarantined _ => x

/-- The engine at CLEAR (R152): COPYING, and CUTOVER before the swap is taken, are abandoned under the drain
of CLEAR; ABANDONING takes it as its drain owner. -/
def Rle.clear : Rle → Rle
  | .copying src tgt ptr => .abandoning src tgt ptr true .clear
  | .cutover src tgt ptr aw cl bu (.taken a h) => .cutover src tgt ptr aw cl bu (.taken a h)
  | .cutover src tgt ptr _ _ _ .notRequested => .abandoning src tgt ptr false .clear
  | .cutover src tgt ptr _ _ _ .requested => .abandoning src tgt ptr false .clear
  | .abandoning src tgt ptr b _ => .abandoning src tgt ptr b .clear
  | .idle => .idle
  | .waiting => .waiting

/-- CLEAR abandons the relocation in progress (R149, R152). -/
def Rle.clearAbandons : Rle → Bool
  | .copying _ _ _ => true
  | .cutover _ _ _ _ _ _ (.taken _ _) => false
  | .cutover _ _ _ _ _ _ .notRequested => true
  | .cutover _ _ _ _ _ _ .requested => true
  | .idle | .waiting | .abandoning _ _ _ _ _ => false

/-- The extents that are RETIRING, ascending (R39). -/
def State.retiringExtents (s : State) : List Extent :=
  Tab.indices s.extents fun _ x => decide (x.st = .retiring)

/-- The window slots that are not VACANT, ascending. -/
def State.closedByClear (s : State) : List WSlot :=
  Tab.indices s.windows fun _ w => decide (w.state ≠ .vacant)

/-- The members of the pending drains (R171): of the windows and of an earlier CLEAR. -/
def State.pendingPort (s : State) (q : Port) : Bool :=
  ((List.finRange 128).any fun w => (s.window w).drain.ports.has q) ||
    (match s.clearRec with
      | none => false
      | some c => c.drain.ports.has q)

/-- The drain set of CLEAR (R171, R172 item 5): every port in flight through any window and every member of
a pending drain, with the engine where it has a block in copy. -/
def State.clearDrain (s : State) : DrainSet :=
  { ports := PortSet.of fun q => (s.port q).access.record.isSome || s.pendingPort q
    rle := s.rle.hasBlock }

/-- The tables and the engine after the take of CLEAR, before its drain is recorded (R39, R152, R172). -/
def State.clearTables (s : State) : State :=
  let s1 := s.mapPorts fun q u => if q = s.supervisor then u else u.clear
  let s2 := (s1.mapWindows fun _ w => w.clear).mapExtents fun _ x => x.clear
  let s3 := { s2 with relocList := [], rle := s.rle.clear }
  if s.rle.clearAbandons then
    State.addAttention { s3 with abandonHanded := PortSet.all } s.supervisor .moved
  else s3

/-- The record of the drain of CLEAR (R171); `live` where the slot of this CLEAR waits for its end. -/
def State.clearRecord (s : State) (live : Bool) : ClearRecord :=
  { drain := s.clearDrain, retiring := s.clearTables.retiringExtents, closed := s.closedByClear,
    slotLive := live }

/-- The effect of CLEAR (R172, R173): a drain formed empty ends at the take, and the command is finished
there. -/
def clearVerdict (s : State) : Verdict :=
  if s.clearDrain.isEmpty then
    .finished
      (State.endClearDrain { s.clearTables with clearRec := some (s.clearRecord false) }).settle
      (Words4.one (numWord s.clearTables.retiringExtents.length))
  else .inProgress (State.settle { s.clearTables with clearRec := some (s.clearRecord true) })

/-- CLEAR, code 0x4F (R172). -/
def execClear (p : Port) (s : State) : Result :=
  s.takeCommand p (· == 0x4F) fun t => supervisorOnly p t clearVerdict

/-- The drain of the window in slot `w` is to end (R94): its set is empty while work is kept for its end,
and the window is not under CLEAR (R171). -/
def State.drainEndDue (s : State) (w : WSlot) : Bool :=
  !s.resetn && !s.underClear w && (s.window w).drain.isEmpty &&
    (decide ((s.window w).state = .draining) || decide ((s.window w).retiring ≠ []))

/-- DRAIN_END (R94). -/
def execDrainEnd (w : WSlot) (s : State) : Result :=
  if s.drainEndDue w then .next (s.endDrain w).settle else .next s

/-- The drain of CLEAR is to end (R173): its set is empty. -/
def State.clearDrainEndDue (s : State) : Bool :=
  !s.resetn && (match s.clearRec with
    | none => false
    | some c => c.drain.isEmpty)

/-- CLEAR_DRAIN_END (R173). -/
def execClearDrainEnd (s : State) : Result :=
  if s.clearDrainEndDue then .next s.endClearDrain.settle else .next s

/-- The hold wait on port `q` is to end (R161): its access is IDLE. -/
def State.holdFinishDue (s : State) (q : Port) : Bool :=
  !s.resetn && decide ((s.port q).holdWait ≠ .absent) && decide ((s.port q).access = .idle)

/-- HOLD_FINISH (R161). -/
def execHoldFinish (q : Port) (s : State) : Result :=
  if s.holdFinishDue q then .next (s.endHoldWait q) else .next s

end Sys2Proof.Machine
end

