-- ==== Sys2Proof/Machine/Grants.lean ====
section
/-!
DEFINITION. OFFER, WITHDRAW, ACCEPT, DECLINE, REVOKE, RELEASE, and the ageing of offers: TICK and OFFER_EXPIRY
(R99 to R109).
-/

namespace Sys2Proof.Machine

/-- The state with grant slot `k` of the window in slot `w` set. -/
def State.setGrant (s : State) (w : WSlot) (k : GSlot) (g : Grant) : State :=
  s.updWindow w fun x => x.setGrant k g

/-- The lowest-numbered VACANT slot among slots 1 to 5 (R100). -/
def Window.vacantGrant (w : Window) : Option GSlot :=
  (List.finRange 6).find? fun k => decide (k ≠ 0) && decide (w.grant k = .vacant)

/-- The effect of an OFFER that passes (R100). Every OFFER that passes its checks finds a VACANT slot
(R73 code 10, R99); where there is none, no status is given (R73) and nothing is offered. -/
def State.makeOffer (s : State) (w : WSlot) (a : Port) (rights : Rights) (life : Option Nat) : Verdict :=
  match (s.window w).vacantGrant with
  | none => .finished s Words4.zero
  | some k =>
    .finished ((s.setGrant w k (.offered a rights life)).addAttention a .offers)
      (Words4.one (numWord k.val))

/-- OFFER (R99, R100): handle in ARG0, agent in ARG1, rights in ARG2, lifetime in ARG3. -/
def offerVerdict (p : Port) (s : State) : Verdict :=
  match validHandle s (s.args p).w0 with
  | none => .refuse .noWindow
  | some w =>
    let win := s.window w
    match portArg (s.args p).w1 with
    | none => .refuse .badRange
    | some a =>
      if win.owner = some a then .refuse .badRange
      else
        match rightsArg (s.args p).w2 with
        | none => .refuse .badRange
        | some rights =>
          match lifetimeArg (s.args p).w3 with
          | none => .refuse .badRange
          | some life =>
            checks
              [(decide (win.owner = some p), .noRight),
               (decide (win.state = .opened), .state),
               (!(s.port a).arstn, .state),
               (decide (win.slotOf a = none), .duplicate)] <|
            s.makeOffer w a rights life

/-- OFFER, code 0x10. -/
def execOffer (p : Port) (s : State) : Result := s.takeCommand p (· == 0x10) (offerVerdict p)

/-- WITHDRAW (R106): handle in ARG0, offered agent in ARG1. -/
def withdrawVerdict (p : Port) (s : State) : Verdict :=
  match validHandle s (s.args p).w0 with
  | none => .refuse .noWindow
  | some w =>
    let win := s.window w
    match portArg (s.args p).w1 with
    | none => .refuse .badRange
    | some a =>
      checks [(decide (win.owner = some p), .noRight), (decide (win.state = .opened), .state)] <|
      match win.slotOf a with
      | none => .refuse .state
      | some k =>
        checks [((win.grant k).isOffered, .state)] <|
        .finished ((s.setGrant w k .vacant).addAttention a .offers) Words4.zero

/-- WITHDRAW, code 0x11. -/
def execWithdraw (p : Port) (s : State) : Result := s.takeCommand p (· == 0x11) (withdrawVerdict p)

/-- GRANTS added to the owner of the window in slot `w`. -/
def State.tellOwner (s : State) (w : WSlot) : State :=
  match (s.window w).owner with
  | some o => s.addAttention o .grants
  | none => s

/-- ACCEPT (R101, R102): handle in ARG0, base in ARG1. After a close that left the window VACANT at once the handle
is no more valid and step 3 gives NO_WINDOW, where the table of R110 says NO_OFFER (log 40). -/
def acceptVerdict (p : Port) (s : State) : Verdict :=
  let base := (s.args p).w1.toNat
  match validHandle s (s.args p).w0 with
  | none => .refuse .noWindow
  | some w =>
    let win := s.window w
    let size := win.extents.length
    checks [(s.baseOk base, .badRange)] <|
    match win.slotOf p with
    | none => .refuse .noOffer
    | some k =>
      match win.grant k with
      | .offered _ rights _ =>
        checks
          [(decide (s.viewsHeld p < 16), .viewLimit),
           (s.fits base size, .badRange),
           (!(s.viewsOf p).any (s.meets base size), .overlap)] <|
        .finished ((s.setGrant w k (.active p rights base)).tellOwner w)
          { w0 := numWord size, w1 := numWord rights.code, w2 := 0, w3 := 0 }
      | .vacant => .refuse .noOffer
      | .active _ _ _ => .refuse .noOffer
      | .revoked _ _ _ => .refuse .noOffer

/-- ACCEPT, code 0x12. -/
def execAccept (p : Port) (s : State) : Result := s.takeCommand p (· == 0x12) (acceptVerdict p)

/-- DECLINE (R103): handle in ARG0. NO_WINDOW after a close that left the window VACANT at once, as for ACCEPT
(log 40). -/
def declineVerdict (p : Port) (s : State) : Verdict :=
  match validHandle s (s.args p).w0 with
  | none => .refuse .noWindow
  | some w =>
    match (s.window w).slotOf p with
    | none => .refuse .noOffer
    | some k =>
      checks [(((s.window w).grant k).isOffered, .noOffer)] <|
      .finished ((s.setGrant w k .vacant).tellOwner w) Words4.zero

/-- DECLINE, code 0x13. -/
def execDecline (p : Port) (s : State) : Result := s.takeCommand p (· == 0x13) (declineVerdict p)

/-- An ACTIVE slot becomes REVOKED, keeping agent, rights and base (R107). -/
def Grant.revoke : Grant → Grant
  | .active a r b => .revoked a r b
  | .vacant => .vacant
  | .offered a r l => .offered a r l
  | .revoked a r b => .revoked a r b

/-- The attention a REVOKE by `p` adds (R76, R107): VIEWS to the grantee, GRANTS to an owner that is not
the caller, none of them to the caller itself (log 20). -/
def State.tellRevoked (s : State) (p a : Port) (owner : Option Port) : State :=
  (s.addAttentionWhere (fun q => decide (q = a) && decide (q ≠ p)) .views).addAttentionWhere
    (fun q => decide (owner = some q) && decide (q ≠ p)) .grants

/-- REVOKE (R107): handle in ARG0, grantee in ARG1. -/
def revokeVerdict (p : Port) (s : State) : Verdict :=
  match validHandle s (s.args p).w0 with
  | none => .refuse .noWindow
  | some w =>
    let win := s.window w
    match portArg (s.args p).w1 with
    | none => .refuse .badRange
    | some a =>
      checks
        [(decide (win.owner ≠ some a), .badRange),
         (decide (win.owner = some p) || s.privileged p, .noRight),
         (decide (win.state = .opened), .state)] <|
      match win.slotOf a with
      | none => .refuse .state
      | some k =>
        checks [((win.grant k).isActive, .state)] <|
        .finished ((s.setGrant w k (win.grant k).revoke).tellRevoked p a win.owner) Words4.zero

/-- REVOKE, code 0x14. -/
def execRevoke (p : Port) (s : State) : Result := s.takeCommand p (· == 0x14) (revokeVerdict p)

/-- The window after a RELEASE of its grant slot `k` (R98, R109): RETIRING with no view left returns to
VACANT. -/
def Window.released (w : Window) (k : GSlot) : Window :=
  let v := w.setGrant k .vacant
  match w.state with
  | .retiring => if v.hasView then v else Window.vacantAt (w.gen + 1)
  | .vacant | .opened | .draining => v

/-- RELEASE (R109): handle in ARG0. -/
def releaseVerdict (p : Port) (s : State) : Verdict :=
  match validHandle s (s.args p).w0 with
  | none => .refuse .noWindow
  | some w =>
    let win := s.window w
    match win.slotOf p with
    | none => .refuse .noRight
    | some k =>
      checks
        [((win.grant k).isView, .state),
         (!(decide (k = 0) && decide (win.state = .opened)), .state)] <|
      let t := s.updWindow w fun x => x.released k
      .finished (if win.state = .opened then t.tellOwner w else t) Words4.zero

/-- RELEASE, code 0x15. -/
def execRelease (p : Port) (s : State) : Result := s.takeCommand p (· == 0x15) (releaseVerdict p)

/-- An OFFERED slot aged by one tick (R104): a lifetime that is not 0 is lowered by one. -/
def Grant.age : Grant → Grant
  | .offered a r (some n) => .offered a r (some (n - 1))
  | .offered a r none => .offered a r none
  | .vacant => .vacant
  | .active a r b => .active a r b
  | .revoked a r b => .revoked a r b

/-- The offer's lifetime has reached 0: it expires (R104, R105). -/
def Grant.lapsed : Grant → Bool
  | .offered _ _ (some 0) => true
  | .offered _ _ (some (_ + 1)) | .offered _ _ none | .vacant | .active _ _ _ | .revoked _ _ _ => false

/-- The expiry of an offer vacates its slot (R105). -/
def Grant.expire (g : Grant) : Grant := if g.lapsed then .vacant else g

/-- A window's grant slots at a tick: aged, and vacated where the lifetime thereby reaches 0; an offer is
aged only while its window is OPEN (R104, R105). -/
def Window.tick (w : Window) : Window :=
  if w.state = .opened then { w with grants := Tab.mapAll w.grants fun _ g => g.age.expire } else w

/-- An offer of the window lapses at this tick and passes a test. -/
def Window.lapses (w : Window) (test : Grant → Bool) : Bool :=
  decide (w.state = .opened) && w.anyGrant fun g => g.age.lapsed && test g

/-- TICK (R104, R105): every offer is aged; those that reach 0 expire at the same take, OFFERS to each
offered agent and GRANTS to each owner. -/
def execTick (s : State) : Result :=
  if s.resetn then .next s
  else
    let s1 := s.addAttentionWhere
      (fun p => (List.finRange 128).any fun w => (s.window w).lapses fun g => g.isOf p) .offers
    let s2 := s1.addAttentionWhere
      (fun p => (List.finRange 128).any fun w =>
        decide ((s.window w).owner = some p) && (s.window w).lapses fun _ => true) .grants
    .next (s2.mapWindows fun _ x => x.tick)

/-- The expiry of one offer (R105): its slot vacated, OFFERS to the agent, GRANTS to the owner. -/
def State.expireOffer (s : State) (w : WSlot) (k : GSlot) (a : Port) : State :=
  ((s.setGrant w k .vacant).addAttention a .offers).tellOwner w

/-- OFFER_EXPIRY (R105): due where a lifetime stands at 0; TICK vacates such offers at its own take (log 2),
so after a tick nothing is left for it to do. -/
def execOfferExpiry (w : WSlot) (k : GSlot) (s : State) : Result :=
  match (s.window w).grant k with
  | .offered a _ (some 0) => .next (if s.resetn then s else s.expireOffer w k a)
  | .offered _ _ (some (_ + 1)) => .next s
  | .offered _ _ none => .next s
  | .vacant => .next s
  | .active _ _ _ => .next s
  | .revoked _ _ _ => .next s

end Sys2Proof.Machine
end

