-- ==== Sys2Proof/Machine/Reads.lean ====
section
/-!
DEFINITION. The five read commands READ WINDOW, READ GRANT, READ VIEW, READ OFFER, READ ACCOUNT and the
layouts of their results (R113 to R118, R177). They change nothing but the caller's slot.
-/

namespace Sys2Proof.Machine

/-- A caller that may read a window: its owner, an agent with a grant slot in it in any state, the
supervisor (R113). -/
def State.mayRead (s : State) (p : Port) (w : WSlot) : Bool :=
  decide ((s.window w).owner = some p) || decide ((s.window w).slotOf p ≠ none) || s.privileged p

/-- The size as READ WINDOW shows it: 0 when the window is not OPEN (R114). -/
def Window.shownSize (w : Window) : Nat :=
  match w.state with
  | .opened => w.extents.length
  | .vacant | .draining | .retiring => 0

/-- A port as a field, 0 where it is absent (R113, R177). -/
def agentField : Option Port → Nat
  | some p => p.val
  | none => 0

/-- The members of a drain set: bit k for APk, bit 6 for the RLE (R177). -/
def DrainSet.word (d : DrainSet) : Word :=
  packFields ((6, 1, d.rle.toNat) :: (List.finRange 6).map fun p => (p.val, 1, (d.ports.has p).toNat))

/-- The six grant slots: slot k in bits 5k+4 to 5k, the low two bits its state, the high three its agent
(R177). -/
def Window.grantsWord (w : Window) : Word :=
  packFields ((List.finRange 6).flatMap fun k =>
    [(5 * k.val, 2, (w.grant k).code), (5 * k.val + 2, 3, agentField (w.grant k).agent)])

/-- The drain set that READ WINDOW shows: the drain of CLEAR for a window under CLEAR (R114, R171). -/
def State.shownDrain (s : State) (w : WSlot) : DrainSet :=
  match s.clearRec with
  | none => (s.window w).drain
  | some c => if w ∈ c.closed then c.drain else (s.window w).drain

/-- The number of retiring extents that READ WINDOW shows (R114, R171). -/
def State.shownRetiring (s : State) (w : WSlot) : Nat :=
  match s.clearRec with
  | none => (s.window w).retiring.length
  | some c => if w ∈ c.closed then c.retiring.length else (s.window w).retiring.length

/-- The results of READ WINDOW (R114, R177). -/
def State.windowWords (s : State) (w : WSlot) : Words4 :=
  { w0 := packFields [(0, 8, (s.window w).shownSize), (8, 3, agentField (s.window w).owner),
      (12, 2, (s.window w).state.code)]
    w1 := (s.shownDrain w).word
    w2 := packFields [(0, 11, s.shownRetiring w)]
    w3 := (s.window w).grantsWord }

/-- READ WINDOW (R114): handle in ARG0. -/
def readWindowVerdict (p : Port) (s : State) : Verdict :=
  match validHandle s (s.args p).w0 with
  | none => .refuse .noWindow
  | some w => checks [(s.mayRead p w, .noRight)] (.finished s (s.windowWords w))

/-- READ WINDOW, code 0x20. -/
def execReadWindow (p : Port) (s : State) : Result := s.takeCommand p (· == 0x20) (readWindowVerdict p)

/-- The rights of a grant slot as a field (R177). -/
def Grant.rightsField : Grant → Nat
  | .vacant => 0
  | .offered _ r _ => r.code
  | .active _ r _ => r.code
  | .revoked _ r _ => r.code

/-- The base of a grant slot as a field, 0 where it has none (R9, R115). -/
def Grant.baseField : Grant → Nat
  | .vacant => 0
  | .offered _ _ _ => 0
  | .active _ _ b => b
  | .revoked _ _ b => b

/-- The remaining lifetime of a grant slot as a field, 0 where it has none and for an offer that does not
expire (R9, R115). -/
def Grant.lifeField : Grant → Nat
  | .offered _ _ (some n) => n
  | .offered _ _ none => 0
  | .vacant | .active _ _ _ | .revoked _ _ _ => 0

/-- The results of READ GRANT (R115, R177). -/
def Grant.words (g : Grant) : Words4 :=
  { w0 := packFields [(0, 2, g.code), (4, 3, agentField g.agent)]
    w1 := numWord g.rightsField
    w2 := numWord g.baseField
    w3 := numWord g.lifeField }

/-- READ GRANT (R115): handle in ARG0, grant slot number in ARG1. -/
def readGrantVerdict (p : Port) (s : State) : Verdict :=
  match validHandle s (s.args p).w0 with
  | none => .refuse .noWindow
  | some w =>
    match grantSlotArg (s.args p).w1 with
    | none => .refuse .badRange
    | some k => checks [(s.mayRead p w, .noRight)] (.finished s ((s.window w).grant k).words)

/-- READ GRANT, code 0x21. -/
def execReadGrant (p : Port) (s : State) : Result := s.takeCommand p (· == 0x21) (readGrantVerdict p)

/-- The caller's views in ascending order of base (R116). -/
def State.viewsByBase (s : State) (p : Port) : List View :=
  (s.viewsOf p).insertionSort fun a b => a.base ≤ b.base

/-- The results of READ VIEW (R116, R177). -/
def State.viewWords (s : State) (p : Port) (v : View) : Words4 :=
  { w0 := (s.handleOf v.window).word
    w1 := packFields [(0, 3, v.slot.val), (4, 2, if v.revoked then 3 else 2), (8, 1, v.rights.code)]
    w2 := numWord v.base
    w3 := packFields [(0, 8, v.len), (16, 5, s.viewsHeld p)] }

/-- READ VIEW (R116): index in ARG0, 0 to 15 and below the views held. -/
def readViewVerdict (p : Port) (s : State) : Verdict :=
  if 15 < (s.args p).w0.toNat then .refuse .badRange
  else
    match (s.viewsByBase p)[(s.args p).w0.toNat]? with
    | none => .refuse .badRange
    | some v => .finished s (s.viewWords p v)

/-- READ VIEW, code 0x22. -/
def execReadView (p : Port) (s : State) : Result := s.takeCommand p (· == 0x22) (readViewVerdict p)

/-- The results of READ OFFER for the offer in grant slot `k` of the window in slot `w` (R117, R177). -/
def State.offerWords (s : State) (p : Port) (w : WSlot) (k : GSlot) : Words4 :=
  let win := s.window w
  { w0 := (s.handleOf w).word
    w1 := packFields [(0, 3, k.val), (8, 1, (win.grant k).rightsField), (16, 3, agentField win.owner)]
    w2 := packFields [(0, 8, win.shownSize), (16, 8, (win.grant k).lifeField)]
    w3 := packFields [(0, 8, (s.offersTo p).length)] }

/-- READ OFFER (R117): index in ARG0, 0 to 127 and below the number of offers to the caller. -/
def readOfferVerdict (p : Port) (s : State) : Verdict :=
  if 127 < (s.args p).w0.toNat then .refuse .badRange
  else
    match (s.offersTo p)[(s.args p).w0.toNat]? with
    | none => .refuse .badRange
    | some o => .finished s (s.offerWords p o.1 o.2)

/-- READ OFFER, code 0x23. -/
def execReadOffer (p : Port) (s : State) : Result := s.takeCommand p (· == 0x23) (readOfferVerdict p)

/-- The results of READ ACCOUNT (R118, R177). -/
def State.accountWords (s : State) (p : Port) : Words4 :=
  { w0 := packFields [(0, 5, (s.account p).windowQuota), (16, 11, (s.account p).extentQuota)]
    w1 := packFields [(0, 2, (s.account p).rank.val)]
    w2 := packFields [(0, 5, s.ownedWindows p), (8, 5, s.viewsHeld p), (16, 11, s.ownedExtents p)]
    w3 := packFields [(0, 11, s.freeList.length)] }

/-- READ ACCOUNT (R118). -/
def readAccountVerdict (p : Port) (s : State) : Verdict := .finished s (s.accountWords p)

/-- READ ACCOUNT, code 0x24. -/
def execReadAccount (p : Port) (s : State) : Result := s.takeCommand p (· == 0x24) (readAccountVerdict p)

end Sys2Proof.Machine
end

