-- ==== Sys2Proof/Machine/Units.lean ====
section
/-!
DEFINITION. The memory port's events: INITIALIZATION_COMPLETE, REFRESH, MEMORY_GRANT, WPE_TAKE, and the
completions of agent accesses, wipe blocks and verify blocks (R34, R35, R40 to R43, R56 to R60, R120 to R136,
R144). A unit's words are read and written at its completion (log 24).
-/

namespace Sys2Proof.Machine

/-- What the unit of an access does to the bank, and the outcome of the word it read, `none` for a full-word
write (R122, R129 to R132). -/
def State.performAccess (s : State) (a : AccessRec) (mirror : Option Extent) (changed : Bits39) :
    Memory × Option WordRead :=
  let adr := s.bankAddr a.ext a.byteAddr
  let copyAdr := mirror.map fun t => s.bankAddr t a.byteAddr
  let m := Memory.disturb s.epoch s.mem adr changed
  let outcome := Memory.readWord s.epoch m adr
  match a.op with
  | .read => (m, some outcome)
  | .write data =>
    if a.size = .word then (Memory.writeBoth s.mem adr copyAdr data, none)
    else
      match deliveredData outcome with
      | some old => (Memory.writeBoth m adr copyAdr (mergeLanes a.size a.addr old data), some outcome)
      | none => (m, some outcome)

/-- The data of a DONE: the requested lanes for a read (R56, R174), none for a write (log 12). -/
def AccessRec.doneData (a : AccessRec) (data : Word) : Option Word :=
  match a.op with
  | .read => some (onLanes a.size a.addr data)
  | .write _ => none

/-- The response to an access from the outcome of its word (R56, R57); APn_RD is 0 with DERR (R174, log
11). -/
def AccessRec.answer (a : AccessRec) : Option WordRead → Response × Option FaultKind
  | none => ({ code := .done, data := none }, none)
  | some (.clean d) => ({ code := .done, data := a.doneData d }, none)
  | some (.corrected d) => ({ code := .done, data := a.doneData d }, none)
  | some .uncorrectable => ({ code := .derr, data := some 0 }, some .data)
  | some .poisoned => ({ code := .derr, data := some 0 }, some .poison)

/-- The response of an ISSUED access given, a DERR recorded as a fault (R58, R62). -/
def State.answerAccess (s : State) (p : Port) (a : AccessRec) (o : Option WordRead) : State :=
  let s1 := match (a.answer o).2 with
    | none => s
    | some kind => s.recordFault p kind a.addr (decide (a.op ≠ BusOp.read)) (some a.handle)
  s1.respond p (a.answer o).1.code (a.answer o).1.data

/-- A CORRECTED report on a BOUND extent (R34): the count rises below the threshold, and the extent is
listed where it thereby reaches it. -/
def State.countCorrection (s : State) (e : Extent) : State :=
  let x := s.entry e
  if x.st.isBound ∧ x.count < s.threshold then
    let s1 := s.updExtent e fun y => { y with count := y.count + 1 }
    if x.count + 1 = s.threshold ∧ e ∉ s.relocList then s1.listForRelocation e else s1
  else s

/-- The report of a word outcome taken at the Extent Manager (R34, R35, R135). -/
def State.report (s : State) (e : Extent) : Option WordRead → State
  | some (.corrected _) => s.countCorrection e
  | some .uncorrectable =>
    if (s.entry e).st.isBound ∧ e ∉ s.relocList then s.listForRelocation e else s
  | some (.clean _) => s
  | some .poisoned => s
  | none => s

/-- The engine asks for the swap when no port is awaited any more (R144). -/
def SwapState.request (awaited : PortSet) : SwapState :=
  if awaited.isEmpty then .requested else .notRequested

/-- The engine takes the completion of port `p`'s access to an extent (R144): an awaited port whose access
named the source is awaited no more, and an answer of it still on its way is void (log 19). -/
def Rle.completed (r : Rle) (p : Port) (e : Extent) : Rle :=
  match r with
  | .cutover src tgt ptr aw cl bu .notRequested =>
    if e = src ∧ aw.has p then
      .cutover src tgt ptr (aw.erase p) (cl.erase p) (bu.erase p) (SwapState.request (aw.erase p))
    else .cutover src tgt ptr aw cl bu .notRequested
  | .cutover src tgt ptr aw cl bu .requested => .cutover src tgt ptr aw cl bu .requested
  | .cutover src tgt ptr aw cl bu (.taken a h) => .cutover src tgt ptr aw cl bu (.taken a h)
  | .idle => .idle
  | .waiting => .waiting
  | .copying src tgt ptr => .copying src tgt ptr
  | .abandoning src tgt ptr b o => .abandoning src tgt ptr b o

/-- The completion of port `p`'s access `a` (R22, R58, R60, R93, R161): `live` where the access is ISSUED and
so receives its response. -/
def State.completeAccess (s : State) (p : Port) (a : AccessRec) (live : Bool) (mirror : Option Extent)
    (changed : Bits39) : State :=
  let done := s.performAccess a mirror changed
  let s1 := State.report (State.endUnit { s with mem := done.1 }) a.ext done.2
  let s2 := if live then s1.answerAccess p a done.2 else s1
  let s3 := s2.updPort p fun u => { u with access := .idle }
  let s4 := { s3 with rle := s3.rle.completed p a.ext }
  (((s4.leave a.handle.slot (.port p)).endHoldWait p)).settle

/-- ACCESS_COMPLETION (R58): due where the unit in progress is port `p`'s access. -/
def execAccessCompletion (p : Port) (changed : Bits39) (s : State) : Result :=
  match s.resetn, s.unit, (s.port p).access with
  | false, some (.agent q mirror), .issued a =>
    if q = p then .next (s.completeAccess p a true mirror changed) else .next s
  | false, some (.agent q mirror), .orphaned a =>
    if q = p then .next (s.completeAccess p a false mirror changed) else .next s
  | _, _, _ => .next s

/-- INITIALIZATION_COMPLETE (R41, R45, R120): the bank is READY and the Wipe Engine takes the Wipe List head
at once. -/
def execInitializationComplete (s : State) : Result :=
  if s.resetn || s.bankReady then .next s else .next (State.settle { s with bankReady := true })

/-- REFRESH (R121): at the end of a refresh interval of the READY bank refresh pending becomes yes. With a unit in
progress the refresh waits for its end; else it is performed from now on, and no grant is made until it is over
(log 33). -/
def execRefresh (s : State) : Result :=
  if s.resetn || !s.bankReady then .next s else .next { s with refreshPending := true }

/-- MEMORY_GRANT (R123, R124, R126): a refresh that is performed is over (R121), and the arbiter grants. Without one
a request presented to an idle bank is granted in the step that presents it (logs 2, 33). -/
def execMemoryGrant (s : State) : Result := if s.resetn then .next s else .next s.endRefresh.grantMemory

/-- WPE_TAKE (R41); what lets the Wipe Engine take also makes it take (log 2). -/
def execWpeTake (s : State) : Result := if s.resetn then .next s else .next s.wpeTake.grantMemory

/-- The first bank word of a block of an extent (R23, R178). -/
def State.blockAddr (s : State) (e : Extent) (block : Nat) : Nat := s.bankAddr e (64 * block)

/-- The Wipe Engine after a wipe block (R42). -/
def State.wpeAfterWipe (s : State) (e : Extent) (block : Nat) : Wpe :=
  if block + 1 < s.blocksPerExtent then .writing e (block + 1) else .verifying e 0 false

/-- WIPE_BLOCK_COMPLETE (R42, R134). -/
def execWipeBlockComplete (s : State) : Result :=
  match s.resetn, s.unit, s.wpe with
  | false, some .wipe, .writing e b =>
    .next (State.grantMemory (State.endUnit
      { s with mem := Memory.wipeWords s.mem (s.blockAddr e b) 16, wpe := s.wpeAfterWipe e b }))
  | _, _, _ => .next s

/-- The end of a wipe (R30, R37, R43). -/
def State.wipeEnd (s : State) (e : Extent) (failed : Bool) : State :=
  let s1 := if failed then s.enterQuarantine e .verify
    else { s.updExtent e (fun x => { x with st := .free, poisoned := false }) with
             freeList := s.freeList ++ [e] }
  { s1 with wpe := .idle }

/-- The Wipe Engine after a verify block (R43). -/
def State.afterVerify (s : State) (e : Extent) (block : Nat) (failed : Bool) : State :=
  if block + 1 < s.blocksPerExtent then { s with wpe := .verifying e (block + 1) failed }
  else s.wipeEnd e failed

/-- VERIFY_BLOCK_COMPLETE (R43, R134). -/
def execVerifyBlockComplete (changed : Vector Bits39 16) (s : State) : Result :=
  match s.resetn, s.unit, s.wpe with
  | false, some .verify, .verifying e b f =>
    let r := Memory.verifyWords s.epoch s.mem (s.blockAddr e b) changed.toList
    .next (State.afterVerify (State.endUnit { s with mem := r.1 }) e b (f || r.2)).settle
  | _, _, _ => .next s

end Sys2Proof.Machine
end

