-- ==== Sys2Proof/Machine/Relocation.lean ====
section
/-!
DEFINITION. The Relocation Engine's events: RELOCATION_START, BLOCK_COPY_COMPLETE, CUTOVER_ANSWER, SWAP,
PORT_SWAP_TAKE, SWAP_ACKNOWLEDGE, ABANDONMENT_TAKE (R54, R55, R133, R137 to R155).
-/

namespace Sys2Proof.Machine

/-- RELOCATION_START (R139): due where the engine is IDLE or WAITING and both lists hold an extent; what
brings that about also starts the relocation (log 2). -/
def execRelocationStart (s : State) : Result :=
  match s.resetn, s.rle, s.relocList, s.freeList with
  | false, .idle, src :: _, tgt :: _ => .next (s.startRelocation src tgt).settle
  | false, .waiting, src :: _, tgt :: _ => .next (s.startRelocation src tgt).settle
  | _, _, _, _ => .next s

/-- An access STALLED with cause BLOCK is issued, its record unchanged (R54). -/
def Access.releaseBlock : Access → Access
  | .stalled .block a => .issued a
  | .stalled .cutover a => .stalled .cutover a
  | .idle => .idle
  | .issued a => .issued a
  | .orphaned a => .orphaned a

/-- An access STALLED with cause CUTOVER is issued, its record changed by `f` (R55). -/
def Access.releaseCutover (f : AccessRec → AccessRec) : Access → Access
  | .stalled .cutover a => .issued (f a)
  | .stalled .block a => .stalled .block a
  | .idle => .idle
  | .issued a => .issued a
  | .orphaned a => .orphaned a

/-- The port's access is ISSUED or ORPHANED with its record naming an extent (R144). -/
def Access.busyOn (e : Extent) : Access → Bool
  | .issued a => decide (a.ext = e)
  | .orphaned a => decide (a.ext = e)
  | .idle | .stalled _ _ => false

/-- The block at the copy pointer copied from source to target, the target marked if a word was written
poisoned, the completion handed to every port (R133, R141 items 2 and 3, R150 items 2 and 3, R153). The BLOCK
stalls that it releases are presented before the grant that this completion makes possible, an order R126 leaves
open (log 37). -/
def State.copyBlock (s : State) (src tgt : Extent) (ptr : Nat) (changed : Vector Bits39 16) : State :=
  let r := Memory.copyWords s.epoch s.mem (s.blockAddr src ptr) (s.blockAddr tgt ptr) changed.toList
  let s1 := State.endUnit { s with mem := r.1 }
  let s2 := if r.2 then s1.updExtent tgt fun x => { x with poisoned := true } else s1
  s2.mapPorts fun _ u => { u with access := u.access.releaseBlock }

/-- The engine in CUTOVER after the last block (R144): all six ports awaited, each with its answer. -/
def State.enterCutover (s : State) (src tgt : Extent) (ptr : Nat) : Rle :=
  .cutover src tgt ptr PortSet.all
    (PortSet.of fun p => !(s.port p).access.busyOn src)
    (PortSet.of fun p => (s.port p).access.busyOn src)
    .notRequested

/-- The engine after a block copy in COPYING (R141 items 1, 4 and 5). -/
def State.rleAfterCopy (s : State) (src tgt : Extent) (ptr : Nat) : Rle :=
  if ptr + 1 < s.blocksPerExtent then .copying src tgt (ptr + 1) else s.enterCutover src tgt (ptr + 1)

/-- The engine leaves the drain set that holds it as a member (R150 item 4). -/
def State.leaveOwner (s : State) : DrainOwner → State
  | .window w => s.leaveWindow w .rle
  | .clear => s.leaveClear .rle

/-- BLOCK_COPY_COMPLETE (R133, R141, R144, R150). -/
def execBlockCopyComplete (changed : Vector Bits39 16) (s : State) : Result :=
  match s.resetn, s.unit, s.rle with
  | false, some .copy, .copying src tgt ptr =>
    let s1 := s.copyBlock src tgt ptr changed
    .next (State.settle { s1 with rle := s1.rleAfterCopy src tgt ptr })
  | false, some .copy, .abandoning src tgt ptr true owner =>
    let s1 := { s.copyBlock src tgt ptr changed with rle := .abandoning src tgt (ptr + 1) false owner }
    .next (s1.leaveOwner owner).settle
  | _, _, _ => .next s

/-- The engine takes port `p`'s answer (R144): clear removes it from the awaited ports, busy leaves it. -/
def Rle.takeAnswer (r : Rle) (p : Port) : Rle :=
  match r with
  | .cutover src tgt ptr aw cl bu .notRequested =>
    if cl.has p then
      .cutover src tgt ptr (aw.erase p) (cl.erase p) bu (SwapState.request (aw.erase p))
    else .cutover src tgt ptr aw cl (bu.erase p) .notRequested
  | .cutover src tgt ptr aw cl bu .requested => .cutover src tgt ptr aw cl bu .requested
  | .cutover src tgt ptr aw cl bu (.taken a h) => .cutover src tgt ptr aw cl bu (.taken a h)
  | .idle => .idle
  | .waiting => .waiting
  | .copying src tgt ptr => .copying src tgt ptr
  | .abandoning src tgt ptr b o => .abandoning src tgt ptr b o

/-- CUTOVER_ANSWER (R144). -/
def execCutoverAnswer (p : Port) (s : State) : Result :=
  if s.resetn then .next s else .next { s with rle := s.rle.takeAnswer p }

/-- The swap of source and target at a window and ordinal (R146). -/
def State.swapExtents (s : State) (src tgt : Extent) (h : Handle) (ordinal : Nat) : State :=
  let s1 := s.updWindow h.slot fun w => { w with extents := w.extents.set ordinal tgt }
  let s2 := s1.updExtent tgt fun x => { x with st := .bound h ordinal, count := 0 }
  (s2.enterQuarantine src .relocated).addAttention s.supervisor .moved

/-- SWAP (R146): due where the engine has asked for it; window and ordinal are those of the MOVING source. -/
def execSwap (s : State) : Result :=
  match s.resetn, s.rle with
  | false, .cutover src tgt ptr _ _ _ .requested =>
    match (s.entry src).st with
    | .moving h ordinal =>
      .next { s.swapExtents src tgt h ordinal with
        rle := .cutover src tgt ptr PortSet.none PortSet.none PortSet.none
          (.taken PortSet.all PortSet.all) }
    | .free | .bound _ _ | .target | .retiring | .dirty | .wiping | .quarantined _ => .next s
  | _, _ => .next s

/-- PORT_SWAP_TAKE (R55, R147): a CUTOVER stall on the source is re-translated and issued (log 31). -/
def execPortSwapTake (p : Port) (s : State) : Result :=
  match s.resetn, s.rle with
  | false, .cutover src tgt ptr aw cl bu (.taken toAck handed) =>
    if handed.has p then
      let s1 := s.updPort p fun u => { u with access := u.access.releaseCutover (s.retranslate tgt) }
      .next (State.grantMemory
        { s1 with rle := .cutover src tgt ptr aw cl bu (.taken toAck (handed.erase p)) })
    else .next s
  | _, _ => .next s

/-- SWAP_ACKNOWLEDGE (R139, R146): port `p` acknowledges after its take of the swap; the last one brings the
engine to rest. -/
def execSwapAcknowledge (p : Port) (s : State) : Result :=
  match s.resetn, s.rle with
  | false, .cutover src tgt ptr aw cl bu (.taken toAck handed) =>
    if toAck.has p && !handed.has p then
      if (toAck.erase p).isEmpty then .next (State.settle { s with rle := .idle })
      else .next { s with rle := .cutover src tgt ptr aw cl bu (.taken (toAck.erase p) handed) }
    else .next s
  | _, _ => .next s

/-- ABANDONMENT_TAKE (R55, R149): a CUTOVER stall is issued against the source, its record unchanged. -/
def execAbandonmentTake (p : Port) (s : State) : Result :=
  if !s.resetn && s.abandonHanded.has p then
    let s1 := s.updPort p fun u => { u with access := u.access.releaseCutover id }
    .next (State.grantMemory { s1 with abandonHanded := s.abandonHanded.erase p })
  else .next s

end Sys2Proof.Machine
end

