-- ==== Sys2Proof/Machine/Resets.lean ====
section
/-!
DEFINITION. The reset pins: RESETN_RELEASE, RESETN_ASSERT, ARSTN_ASSERT, ARSTN_RELEASE
(R1, R45, R119, R163, R175).
-/

namespace Sys2Proof.Machine

/-- The levels of the six ARSTn pins. -/
def State.arstnPins (s : State) : PortSet := PortSet.of fun p => (s.port p).arstn

/-- RESETN_RELEASE (R1, R45, R163, R175): the straps are sampled and every state takes its power-on value;
the bank's contents are undefined anew (R120). A release is performed whether or not the model recorded the
assertion before it (log 15). -/
def execResetnRelease (straps : Straps) (s : State) : Result :=
  .next (State.powerOn straps s.arstnPins s.pending (s.epoch + 1) s.freeIdx)

/-- A port when RESETn is asserted: its access and request are abandoned (R119, R126). -/
def PortUnit.abandonRequest (u : PortUnit) : PortUnit := { u with access := .idle, response := none }

/-- RESETN_ASSERT (R119, R126, R40, R156): the unit in progress, every request and the work of both engines
are abandoned; the bank is READY no more and its contents are undefined; NOTICE is negated (R77). All other
state, refresh pending with it, waits for its power-on value at the release (log 14). -/
def execResetnAssert (s : State) : Result :=
  if s.resetn then .next s
  else
    .next { s.mapPorts (fun _ u => u.abandonRequest) with
      resetn := true
      unit := none
      bankReady := false
      wpe := .idle
      rle := .idle
      abandonHanded := PortSet.none
      mem := []
      epoch := s.epoch + 1 }

/-- ARSTN_ASSERT (R163): the take of a port reset; nothing where the pin is asserted already, and the pin
alone while RESETn is asserted. -/
def execArstnAssert (p : Port) (s : State) : Result :=
  let s1 := s.updPort p fun u => { u with arstn := true }
  if (s.port p).arstn then .next s
  else if s.resetn then .next s1
  else .next (s1.resetPort p p).settle

/-- ARSTN_RELEASE (R163): the port is RUNNING and takes the next request that arrives (R48, log 13). -/
def execArstnRelease (p : Port) (s : State) : Result :=
  .next (s.updPort p fun u => { u with arstn := false })

end Sys2Proof.Machine
end

