-- ==== Sys2Proof/Machine/Windows.lean ====
section
/-!
DEFINITION. UNDEFINED_COMMAND, OPEN, GROW, SHRINK and CLOSE (R66, R78 to R91).
-/

namespace Sys2Proof.Machine

/-- The command codes that name a command (chapters 5, 6 and 9). -/
def commandCodes : List (BitVec 8) :=
  [0x01, 0x02, 0x03, 0x04, 0x10, 0x11, 0x12, 0x13, 0x14, 0x15, 0x20, 0x21, 0x22, 0x23, 0x24,
   0x40, 0x41, 0x42, 0x43, 0x44, 0x45, 0x46, 0x47, 0x48, 0x49, 0x4A, 0x4B, 0x4F]

/-- UNDEFINED_COMMAND (R66, R72 step 1): a code that names no command is finished with BAD_COMMAND. -/
def execUndefinedCommand (p : Port) (s : State) : Result :=
  s.takeCommand p (fun c => decide (c ∉ commandCodes)) fun _ => .refuse .badCommand

/-- The extents become BOUND to a window at ordinals `from`, `from`+1, … with count 0 (R28). -/
def State.bindExtents (s : State) (h : Handle) (first : Nat) (l : List Extent) : State :=
  s.mapExtents fun e x =>
    if e ∈ l then { x with st := .bound h (first + l.idxOf e), count := 0 } else x

/-- The lowest-numbered VACANT window slot (R79). -/
def State.vacantSlot (s : State) : Option WSlot :=
  (List.finRange 128).find? fun w => decide ((s.window w).state = .vacant)

/-- The record of a new window (R79). -/
def Window.opened (w : Window) (p : Port) (l : List Extent) (base : Nat) : Window :=
  { state := .opened, gen := w.gen, owner := some p, extents := l, closedLen := 0,
    grants := Tab.upd (Vector.replicate 6 .vacant) 0 fun _ => .active p .readWrite base,
    drain := DrainSet.empty, retiring := [] }

/-- The effect of an OPEN that passes (R28, R79). -/
def State.openAt (s : State) (p : Port) (w : WSlot) (n base : Nat) : State :=
  let l := s.freeList.take n
  let s1 := { s.bindExtents (s.handleOf w) 0 l with freeList := s.freeList.drop n }
  s1.updWindow w fun x => x.opened p l base

/-- OPEN (R78, R79): size in ARG0, base in ARG1. -/
def openVerdict (p : Port) (s : State) : Verdict :=
  let n := (s.args p).w0.toNat
  let base := (s.args p).w1.toNat
  checks
    [(decide (1 ≤ n ∧ n ≤ 128), .badRange),
     (s.baseOk base, .badRange),
     (s.fits base n, .badRange),
     (decide (s.ownedWindows p < (s.account p).windowQuota), .quota),
     (decide (s.ownedExtents p + n ≤ (s.account p).extentQuota), .quota),
     (decide (s.viewsHeld p < 16), .viewLimit),
     (!(s.viewsOf p).any (s.meets base n), .overlap)] <|
  match s.vacantSlot with
  | none => .refuse .tableFull
  | some w =>
    checks [(decide (n ≤ s.freeList.length), .noSpace)] <|
    .finished (s.openAt p w n base) (Words4.one (s.handleOf w).word)

/-- OPEN, code 0x01. -/
def execOpen (p : Port) (s : State) : Result := s.takeCommand p (· == 0x01) (openVerdict p)

/-- The views of a window, by grant slot: the agent and the base. -/
def Window.viewBases (w : Window) : List (GSlot × Port × Nat) :=
  (List.finRange 6).filterMap fun k =>
    match w.grant k with
    | .active a _ b => some (k, a, b)
    | .revoked a _ b => some (k, a, b)
    | .vacant => none
    | .offered _ _ _ => none

/-- R81 step 8: every view of the window, at its new length, ends within view space. -/
def State.growFits (s : State) (w : WSlot) (len : Nat) : Bool :=
  (s.window w).viewBases.all fun v => s.fits v.2.2 len

/-- R81 step 8: every view of the window, at its new length, meets no other view of its agent. -/
def State.growClear (s : State) (w : WSlot) (len : Nat) : Bool :=
  (s.window w).viewBases.all fun v =>
    (s.viewsOf v.2.1).all fun u => (decide (u.window = w) && decide (u.slot = v.1)) || !s.meets v.2.2 len u

/-- The effect of a GROW that passes (R28, R82). -/
def State.growBy (s : State) (w : WSlot) (n : Nat) : State :=
  let l := s.freeList.take n
  let s1 := { s.bindExtents (s.handleOf w) (s.window w).extents.length l with freeList := s.freeList.drop n }
  s1.updWindow w fun x => { x with extents := x.extents ++ l }

/-- GROW (R81, R82): handle in ARG0, number of extents in ARG1. -/
def growVerdict (p : Port) (s : State) : Verdict :=
  let n := (s.args p).w1.toNat
  match validHandle s (s.args p).w0 with
  | none => .refuse .noWindow
  | some w =>
    let win := s.window w
    let size := win.extents.length
    checks
      [(decide (1 ≤ n ∧ n ≤ 127), .badRange),
       (decide (win.owner = some p), .noRight),
       (decide (win.state = .opened) && win.drain.isEmpty && !win.anyGrant Grant.isRevoked, .state),
       (decide (size + n ≤ 128), .badRange),
       (decide (s.ownedExtents p + n ≤ (s.account p).extentQuota), .quota),
       (s.growFits w (size + n), .badRange),
       (s.growClear w (size + n), .overlap),
       (decide (n ≤ s.freeList.length), .noSpace)] <|
    .finished (s.growBy w n) (Words4.one (numWord (size + n)))

/-- GROW, code 0x02. -/
def execGrow (p : Port) (s : State) : Result := s.takeCommand p (· == 0x02) (growVerdict p)

/-- The effect of a SHRINK that passes (R85 to R87): the extents at the highest ordinals leave, the views
shorten with the extent list, and the drain set is formed; formed empty, the drain ends at once. -/
def State.shrinkBy (s : State) (w : WSlot) (n : Nat) : State :=
  let win := s.window w
  let kept := win.extents.length - n
  let l := win.extents.drop kept
  let s1 := (s.loseExtents w l).updWindow w fun x =>
    { x with
      extents := win.extents.take kept
      drain := x.drain.union (s.drainFormed w l)
      retiring := s.retiringWith w l }
  s1.endDrainIfEmpty w

/-- SHRINK (R84, R85): handle in ARG0, number of extents in ARG1. -/
def shrinkVerdict (p : Port) (s : State) : Verdict :=
  let n := (s.args p).w1.toNat
  match validHandle s (s.args p).w0 with
  | none => .refuse .noWindow
  | some w =>
    let win := s.window w
    checks
      [(decide (1 ≤ n ∧ n ≤ 127), .badRange),
       (decide (win.owner = some p), .noRight),
       (decide (win.state = .opened) && win.drain.isEmpty, .state),
       (decide (n < win.extents.length), .badRange)] <|
    .finished (s.shrinkBy w n).settle (Words4.one (numWord (win.extents.length - n)))

/-- SHRINK, code 0x03. -/
def execShrink (p : Port) (s : State) : Result := s.takeCommand p (· == 0x03) (shrinkVerdict p)

/-- CLOSE (R88 to R91): handle in ARG0. -/
def closeVerdict (p : Port) (s : State) : Verdict :=
  match validHandle s (s.args p).w0 with
  | none => .refuse .noWindow
  | some w =>
    checks
      [(decide ((s.window w).owner = some p), .noRight),
       (decide ((s.window w).state = .opened), .state)] <|
    .finished (s.closeWindow p false w).settle Words4.zero

/-- CLOSE, code 0x04. -/
def execClose (p : Port) (s : State) : Result := s.takeCommand p (· == 0x04) (closeVerdict p)

end Sys2Proof.Machine
end

