-- ==== Sys2Proof/Machine/Dispatch.lean ====
section
/-!
DEFINITION. One arm per command: the meaning it calls.
-/

namespace Sys2Proof.Machine

def exec (i : Instr) (s : State) : Host.Outcome State Fault Refusal :=
  match i with
  | .resetnRelease t => Sys2Proof.Machine.execResetnRelease t s
  | .resetnAssert => Sys2Proof.Machine.execResetnAssert s
  | .arstnAssert p => Sys2Proof.Machine.execArstnAssert p s
  | .arstnRelease p => Sys2Proof.Machine.execArstnRelease p s
  | .viewSpaceRequest p r => Sys2Proof.Machine.execViewSpaceRequest p r s
  | .controlImageRefused p r => Sys2Proof.Machine.execControlImageRefused p r s
  | .attentionWordWrite p v => Sys2Proof.Machine.execAttentionWordWrite p v s
  | .noticeWordWrite p v => Sys2Proof.Machine.execNoticeWordWrite p v s
  | .faultRecordClear p v => Sys2Proof.Machine.execFaultRecordClear p v s
  | .controlWordWrite p r => Sys2Proof.Machine.execControlWordWrite p r s
  | .undefinedCommand p => Sys2Proof.Machine.execUndefinedCommand p s
  | .openWindow p => Sys2Proof.Machine.execOpen p s
  | .grow p => Sys2Proof.Machine.execGrow p s
  | .shrink p => Sys2Proof.Machine.execShrink p s
  | .close p => Sys2Proof.Machine.execClose p s
  | .offer p => Sys2Proof.Machine.execOffer p s
  | .withdraw p => Sys2Proof.Machine.execWithdraw p s
  | .accept p => Sys2Proof.Machine.execAccept p s
  | .decline p => Sys2Proof.Machine.execDecline p s
  | .revoke p => Sys2Proof.Machine.execRevoke p s
  | .release p => Sys2Proof.Machine.execRelease p s
  | .readWindow p => Sys2Proof.Machine.execReadWindow p s
  | .readGrant p => Sys2Proof.Machine.execReadGrant p s
  | .readView p => Sys2Proof.Machine.execReadView p s
  | .readOffer p => Sys2Proof.Machine.execReadOffer p s
  | .readAccount p => Sys2Proof.Machine.execReadAccount p s
  | .setQuota p => Sys2Proof.Machine.execSetQuota p s
  | .setRank p => Sys2Proof.Machine.execSetRank p s
  | .setThreshold p => Sys2Proof.Machine.execSetThreshold p s
  | .hold p => Sys2Proof.Machine.execHold p s
  | .resume p => Sys2Proof.Machine.execResume p s
  | .resetPort p => Sys2Proof.Machine.execResetPort p s
  | .forceClose p => Sys2Proof.Machine.execForceClose p s
  | .migrate p => Sys2Proof.Machine.execMigrate p s
  | .quarantine p => Sys2Proof.Machine.execQuarantine p s
  | .restore p => Sys2Proof.Machine.execRestore p s
  | .readExtent p => Sys2Proof.Machine.execReadExtent p s
  | .readPool p => Sys2Proof.Machine.execReadPool p s
  | .clear p => Sys2Proof.Machine.execClear p s
  | .accessCompletion p ch => Sys2Proof.Machine.execAccessCompletion p ch s
  | .drainEnd w => Sys2Proof.Machine.execDrainEnd w s
  | .clearDrainEnd => Sys2Proof.Machine.execClearDrainEnd s
  | .holdFinish q => Sys2Proof.Machine.execHoldFinish q s
  | .tick => Sys2Proof.Machine.execTick s
  | .offerExpiry w k => Sys2Proof.Machine.execOfferExpiry w k s
  | .initializationComplete => Sys2Proof.Machine.execInitializationComplete s
  | .refresh => Sys2Proof.Machine.execRefresh s
  | .memoryGrant => Sys2Proof.Machine.execMemoryGrant s
  | .wpeTake => Sys2Proof.Machine.execWpeTake s
  | .wipeBlockComplete => Sys2Proof.Machine.execWipeBlockComplete s
  | .verifyBlockComplete ch => Sys2Proof.Machine.execVerifyBlockComplete ch s
  | .relocationStart => Sys2Proof.Machine.execRelocationStart s
  | .blockCopyComplete ch => Sys2Proof.Machine.execBlockCopyComplete ch s
  | .swap => Sys2Proof.Machine.execSwap s
  | .portSwapTake p => Sys2Proof.Machine.execPortSwapTake p s
  | .swapAcknowledge p => Sys2Proof.Machine.execSwapAcknowledge p s
  | .commandIssue p v => Sys2Proof.Machine.execCommandIssue p v s
  | .cutoverAnswer p => Sys2Proof.Machine.execCutoverAnswer p s
  | .abandonmentTake p => Sys2Proof.Machine.execAbandonmentTake p s

end Sys2Proof.Machine
end

