-- ==== Sys2Proof/Safety.lean ====
section
/-!
DEFINITION. What must hold of the part in every state: the invariants that the rules state or rest on. Each
is a proposition about one state; what keeps it is stated in the obligations.
-/

namespace Sys2Proof.Machine

/-- The parts of the state that no drain, no close, no abandonment, no start of an engine and no port reset
touches: straps, RESETn, accounts, threshold, the bank and its state, the arbiter's turn, the queue. -/
structure Kept where
  pending        : List Instr
  resetn         : Bool
  straps         : Straps
  accounts       : Vector Account 6
  lastServed     : Port
  threshold      : Nat
  bankReady      : Bool
  refreshPending : Bool
  mem            : Memory
  epoch          : Nat

/-- Those parts of a state. -/
def State.kept (s : State) : Kept :=
  { pending := s.pending, resetn := s.resetn, straps := s.straps, accounts := s.accounts,
    lastServed := s.lastServed, threshold := s.threshold, bankReady := s.bankReady,
    refreshPending := s.refreshPending, mem := s.mem, epoch := s.epoch }

/-- The bank's list is in its canonical form. -/
def State.MemCanonical (s : State) : Prop := Memory.wf s.mem = true

/-- R75: no port but the Supervisor Port holds MOVED or QUARANTINED. -/
def State.SupervisorKinds (s : State) : Prop :=
  ∀ p : Port, p ≠ s.supervisor →
    KindSet.has (s.port p).attention .moved = false ∧ KindSet.has (s.port p).attention .quarantined = false

/-- R34: the threshold is 1 to 15 and no correctable count exceeds it. -/
def State.CountsBounded (s : State) : Prop :=
  1 ≤ s.threshold ∧ s.threshold ≤ 15 ∧ ∀ e : Extent, (s.entry e).count ≤ s.threshold

/-- R69: only the supervisor's slot is ever in progress. -/
def State.OnlySupervisorInProgress (s : State) : Prop :=
  ∀ p : Port, (s.port p).slot.state = .inProgress → p = s.supervisor

/-- R16: the quotas stay in their ranges. -/
def State.AccountsInRange (s : State) : Prop :=
  ∀ p : Port, (s.account p).windowQuota ≤ 16 ∧ (s.account p).extentQuota ≤ 1024

/-- R119, R121: the wipe wait count stays in its range, an INITIALIZING bank performs no unit, and outside RESETn
a refresh is pending only at a READY bank. -/
def State.ArbiterSane (s : State) : Prop :=
  s.wipeWait ≤ 16 ∧ (s.bankReady = false → s.unit = none) ∧
    (s.resetn = false → s.refreshPending = true → s.bankReady = true)

/-- What the rules say happens at once has happened (R29, R41, R123, R139, R140): outside RESETn no grant is
due with a request waiting, an IDLE Wipe Engine has nothing to take, an IDLE Relocation Engine has no extent
listed, and a WAITING one has an extent listed and no FREE extent. -/
def State.Settled (s : State) : Prop :=
  s.resetn = false →
    (s.grantDue = true → s.pickRequester = none) ∧
    (s.wpe = .idle → s.bankReady = true → s.wipeList = []) ∧
    (s.rle = .idle → s.relocList = []) ∧
    (s.rle = .waiting → s.relocList ≠ [] ∧ s.freeList = [])

/-- R1, R2, R4, R10: a window record holds what its state lets it hold. -/
def Window.Wf (w : Window) : Prop :=
  (w.state = .vacant → w = Window.vacantAt w.gen) ∧
  (w.state = .opened → 1 ≤ w.extents.length ∧ w.extents.length ≤ 128) ∧
  (w.state = .opened → ∃ o b, w.owner = some o ∧ w.grant 0 = .active o .readWrite b) ∧
  (w.state ≠ .opened → w.extents = [] ∧ ∀ k, (w.grant k).isActive = false ∧ (w.grant k).isOffered = false) ∧
  (w.state ≠ .vacant → w.owner ≠ none) ∧
  (w.state = .retiring → w.drain = DrainSet.empty ∧ w.hasView = true) ∧
  (w.drain = DrainSet.empty ↔ w.retiring = []) ∧
  (w.grant 0).isOffered = false ∧
  (∀ k, k ≠ 0 → (w.grant k).agent ≠ none → (w.grant k).agent ≠ w.owner) ∧
  (∀ j k a, (w.grant j).isOf a = true → (w.grant k).isOf a = true → j = k)

/-- R3, R171: a DRAINING window whose own drain set is empty is under CLEAR, and a window under CLEAR is
DRAINING with nothing of its own pending and no grant slot in use. -/
def State.DrainsPending (s : State) : Prop :=
  (∀ w, (s.window w).state = .draining → (s.window w).drain = DrainSet.empty → s.underClear w = true) ∧
  (∀ w, s.underClear w = true →
    (s.window w).state = .draining ∧ (s.window w).drain = DrainSet.empty ∧
      (s.window w).grants = Vector.replicate 6 .vacant) ∧
  (∀ c, s.clearRec = some c → c.drain ≠ DrainSet.empty)

/-- Every window record is well formed. -/
def State.WindowsWf (s : State) : Prop := (∀ w, (s.window w).Wf) ∧ s.DrainsPending

/-- R13, R14, R15: an agent holds at most 16 views; each is extent-aligned and ends within view space, and
two views of one agent never meet. -/
def State.ViewsOk (s : State) : Prop :=
  ∀ a : Port,
    s.viewsHeld a ≤ 16 ∧
    (∀ v ∈ s.viewsOf a, v.base % s.extentBytes = 0 ∧ v.base + v.len * s.extentBytes ≤ viewSpaceBytes) ∧
    (s.viewsOf a).Pairwise fun u v => s.meets u.base u.len v = false

/-- The extent the Wipe Engine is at (R40). -/
def Wpe.current : Wpe → Option Extent
  | .idle => none
  | .writing e _ => some e
  | .verifying e _ _ => some e

/-- The source and target of a relocation that is neither swapped nor abandoned (R138). -/
def Rle.live : Rle → Option (Extent × Extent)
  | .copying src tgt _ => some (src, tgt)
  | .cutover _ _ _ _ _ _ (.taken _ _) => none
  | .cutover src tgt _ _ _ _ .notRequested => some (src, tgt)
  | .cutover src tgt _ _ _ _ .requested => some (src, tgt)
  | .idle | .waiting | .abandoning _ _ _ _ _ => none

/-- The place of an extent in a window: BOUND or MOVING at a handle and ordinal (R24). -/
def ExtState.place : ExtState → Option (Handle × Nat)
  | .bound h o => some (h, o)
  | .moving h o => some (h, o)
  | .free | .target | .retiring | .dirty | .wiping | .quarantined _ => none

/-- The extent is MOVING. -/
def ExtState.isMoving : ExtState → Bool
  | .moving _ _ => true
  | .free | .bound _ _ | .target | .retiring | .dirty | .wiping | .quarantined _ => false

/-- R25, R27, R29, R32, R40: the Free List holds exactly the FREE extents, the Wipe List exactly the DIRTY
ones, the Relocation List only BOUND ones, none twice; exactly the Wipe Engine's extent is WIPING. -/
def State.ListsAgree (s : State) : Prop :=
  s.freeList.Nodup ∧ s.wipeList.Nodup ∧ s.relocList.Nodup ∧
  (∀ e, e ∈ s.freeList ↔ (s.entry e).st = .free) ∧
  (∀ e, e ∈ s.wipeList ↔ (s.entry e).st = .dirty) ∧
  (∀ e ∈ s.relocList, (s.entry e).st.isBound = true) ∧
  (∀ e, (s.entry e).st = .wiping ↔ s.wpe.current = some e)

/-- R2, R24: an extent is BOUND or MOVING at a handle and ordinal exactly where it stands at that ordinal in
the extent list of that window. -/
def State.PlacesAgree (s : State) : Prop :=
  ∀ e : Extent, ∀ w : WSlot, ∀ i : Nat,
    (s.entry e).st.place = some (s.handleOf w, i) ↔ (s.window w).extents[i]? = some e

/-- R2: every BOUND or MOVING extent names a window by its present handle. -/
def State.PlacesCurrent (s : State) : Prop :=
  ∀ e : Extent, ∀ h : Handle, ∀ i : Nat, (s.entry e).st.place = some (h, i) → h = s.handleOf h.slot

/-- R138: MOVING and TARGET are exactly the source and target of a relocation that is neither swapped nor
abandoned. -/
def State.EngineAgrees (s : State) : Prop :=
  (∀ e, (s.entry e).st.isMoving = true ↔ ∃ t, s.rle.live = some (e, t)) ∧
  (∀ e, (s.entry e).st = .target ↔ ∃ f, s.rle.live = some (f, e))

/-- The extents that wait in the retiring lists of windows and of the drain of CLEAR, by list. -/
def State.allRetiring (s : State) : List Extent :=
  ((List.finRange 128).flatMap fun w => (s.window w).retiring) ++
    (match s.clearRec with
      | none => []
      | some c => c.retiring)

/-- R25, R38, R39: an extent is RETIRING exactly while it waits in a retiring list, and it waits in one place
only. -/
def State.RetiringAgrees (s : State) : Prop :=
  s.allRetiring.Nodup ∧ ∀ e, e ∈ s.allRetiring ↔ (s.entry e).st = .retiring

end Sys2Proof.Machine
end

