-- ==== Sys2Proof/Certificates/Slice0/Obligations.lean ====
section
/-!
DEFINITION. The statements for the provers. The helpers before each group spell out, in the rules' own terms,
the tables and record changes that the statements compare the meanings with; none of them is used by a
meaning.
-/

namespace Sys2Proof.Machine

/-- A due command: RESETn negated, port `p`'s slot the arbiter's choice, its code `c` (R67). -/
abbrev State.Due (s : State) (p : Port) (c : BitVec 8) : Prop :=
  s.resetn = false ∧ s.nextCaller = some p ∧ (s.port p).slot.code = c

/-- What a command finished at its take leaves beside its own effect: the arbiter's turn, and in the caller's
slot state DONE, status and results, with DONE in its attention set (R67, R68, R73). -/
def State.answered (s : State) (p : Port) (st : Status) (res : Words4) : State :=
  { s with
    lastServed := p
    ports := Tab.upd s.ports p fun u =>
      { u with slot := { u.slot with state := .done st, res := res }
               attention := KindSet.add u.attention .done } }

/-- A field of a result word: `width` bits from bit `lo` on (R177). -/
def field (w : Word) (lo width : Nat) : Nat := w.toNat / 2 ^ lo % 2 ^ width

/-- Every bit outside these fields, each given by its lowest bit and its width, reads 0 (R176, R177). -/
def ZeroOutside (w : Word) (fields : List (Nat × Nat)) : Prop :=
  ∀ i, (∀ f ∈ fields, i < f.1 ∨ f.1 + f.2 ≤ i) → w.getLsbD i = false

/-- Two ranges of view space meet: `base` with `len` extents and the range of a view (R14). -/
abbrev State.Overlap (s : State) (base len : Nat) (v : View) : Prop :=
  base < v.base + v.len * s.extentBytes ∧ v.base < base + len * s.extentBytes

end Sys2Proof.Machine

open Sys2Proof Sys2Proof.Machine

/-! ### The queue -/

/-- The form of the row for a block: a step takes the command at the front of the queue. -/
def Obligations.StepRunsFrontCommand : Prop :=
  ∀ (c : Instr) (s : State), step { s with pending := c :: s.pending } = exec c s

/-- On an empty queue the part idles: the model's choice (log 4). -/
def Obligations.EmptyQueueLeavesState : Prop :=
  ∀ s : State, s.pending = [] → step s = .next s

/-! ### What leaves a window, drains and closes, in the rules' own terms -/

namespace Sys2Proof.Machine

/-- An attention kind added to one port. -/
def State.told (s : State) (q : Port) (k : Kind) : State :=
  { s with ports := Tab.upd s.ports q fun u => { u with attention := KindSet.add u.attention k } }

/-- Exactly these kinds have been added to the ports' attention sets. -/
def Adds (s t : State) (kinds : Port → Kind → Prop) : Prop :=
  ∀ (q : Port) (k : Kind), KindSet.has (t.port q).attention k = true ↔
    KindSet.has (s.port q).attention k = true ∨ kinds q k

/-- The caller's slot after a finish with OK (R68). -/
def FinishedOk (s t : State) (p : Port) (res : Words4) : Prop :=
  (t.port p).slot = { (s.port p).slot with state := .done .ok, res := res }

/-- A window record at the end of its drain (R6, R94). -/
def Window.ended (w : Window) : Window :=
  match w.state with
  | .draining =>
    if ∃ k, (w.grant k).isView = true then
      { w with state := .retiring, drain := DrainSet.empty, retiring := [] }
    else Window.vacantAt (w.gen + 1)
  | .vacant | .opened | .retiring => { w with drain := DrainSet.empty, retiring := [] }

/-- The engine at rest where it is ABANDONING under this drain (R151, R173). -/
def Rle.restedFrom (r : Rle) (o : DrainOwner) : Rle :=
  match r with
  | .abandoning src tgt ptr b x => if x = o then .idle else .abandoning src tgt ptr b x
  | .idle => .idle
  | .waiting => .waiting
  | .copying src tgt ptr => .copying src tgt ptr
  | .cutover src tgt ptr a b c x => .cutover src tgt ptr a b c x

/-- RETIRING extents DIRTY at the Wipe List tail in this order (R38, R39). -/
def State.dirtied (s : State) (l : List Extent) : State :=
  { s with
    extents := Tab.mapAll s.extents fun e x => if e ∈ l then { x with st := .dirty } else x
    wipeList := s.wipeList ++ l }

/-- The target that leaves with a relocation's source, where the source is among these extents and the
relocation is neither swapped nor abandoned (R87, R149). -/
def State.targetLeaving (s : State) (l : List Extent) : List Extent :=
  match s.rle.live with
  | some (src, tgt) => if src ∈ l then [tgt] else []
  | none => []

/-- The engine joins the drain set: it is COPYING one of these extents (R150). -/
def State.engineJoins (s : State) (l : List Extent) : Bool :=
  match s.rle with
  | .copying src _ _ => decide (src ∈ l)
  | .idle | .waiting | .cutover _ _ _ _ _ _ _ | .abandoning _ _ _ _ _ => false

/-- The drain set of the window in slot `w` after these extents leave it: the pending one, the ports in flight
through the window, and the engine where it joins (R86, R91). -/
def State.drainAfter (s : State) (w : WSlot) (l : List Extent) : DrainSet :=
  { ports := PortSet.of fun q => (s.window w).drain.ports.has q || s.inFlight q w
    rle := (s.window w).drain.rle || s.engineJoins l }

/-- This extent is the target of a relocation abandoned earlier under the drain of the window in slot `w`
(R149). -/
def State.wasTarget (s : State) (w : WSlot) (e : Extent) : Bool :=
  match s.rle with
  | .abandoning _ tgt _ _ (.window v) => decide (v = w ∧ tgt = e)
  | .idle | .waiting | .copying _ _ _ | .cutover _ _ _ _ _ _ _ | .abandoning _ _ _ _ .clear => false

/-- The retiring list after these extents leave: the extents that waited already, the leaving ones in ordinal
order, the target of an abandoned relocation last, whichever take abandoned it (R87, R89, R95). -/
def State.retiringAfter (s : State) (w : WSlot) (l : List Extent) : List Extent :=
  (s.window w).retiring.filter (fun e => !s.wasTarget w e) ++ l ++ s.targetLeaving l ++
    (s.window w).retiring.filter (s.wasTarget w)

/-- The engine after extents leave the window in slot `w` (R149): ABANDONING under the window's drain where it was
at work on one of them, with its block in copy where it was COPYING; and at rest where that drain is over at
once. A swap already taken is left alone. -/
def State.engineAfter (s : State) (w : WSlot) (l : List Extent) : Rle :=
  let r : Rle := match s.rle with
    | .copying src tgt ptr => if src ∈ l then .abandoning src tgt ptr true (.window w) else s.rle
    | .cutover src tgt ptr _ _ _ .notRequested =>
      if src ∈ l then .abandoning src tgt ptr false (.window w) else s.rle
    | .cutover src tgt ptr _ _ _ .requested =>
      if src ∈ l then .abandoning src tgt ptr false (.window w) else s.rle
    | .cutover _ _ _ _ _ _ (.taken _ _) => s.rle
    | .idle | .waiting | .abandoning _ _ _ _ _ => s.rle
  if s.drainAfter w l = DrainSet.empty then r.restedFrom (.window w) else r

/-- What becomes of the leaving extents and of a relocation of one of them, `v` being the part before what follows
the take at once (R33, R37, R38, R85 to R87, R89, R91, R94, R149): they wait in the retiring list while the drain
set has a member, else they are DIRTY and join the Wipe List tail in the retiring list's order; counts and marks
stay; their Relocation List entries are gone. -/
def ExtentsLeft (s v : State) (w : WSlot) (l : List Extent) : Prop :=
  (∀ e, v.entry e =
    if e ∈ s.retiringAfter w l then
      { s.entry e with st := if s.drainAfter w l = DrainSet.empty then .dirty else .retiring }
    else s.entry e) ∧
  v.relocList = s.relocList.filter (fun e => decide (e ∉ l)) ∧
  v.wipeList = (if s.drainAfter w l = DrainSet.empty then s.wipeList ++ s.retiringAfter w l else s.wipeList) ∧
  v.rle = s.engineAfter w l ∧
  v.abandonHanded = if s.targetLeaving l = [] then s.abandonHanded else PortSet.all

/-- R25: the extents that wait in the window's retiring list are RETIRING. -/
abbrev State.Waiting (s : State) (w : WSlot) : Prop :=
  ∀ e ∈ (s.window w).retiring, (s.entry e).st = .retiring

/-- What a SHRINK or a close of the window in slot `w`, taken for port `p`, changes besides extents: the record
of the window, attention sets, the arbiter's turn, and nothing else. -/
def LeavesOthers (s v : State) (p : Port) (w : WSlot) : Prop :=
  v = { s with
    lastServed := p, windows := v.windows, extents := v.extents, wipeList := v.wipeList,
    relocList := v.relocList, rle := v.rle, abandonHanded := v.abandonHanded, ports := v.ports } ∧
  (∀ x, x ≠ w → v.window x = s.window x) ∧
  ∀ q : Port, v.port q = { s.port q with attention := (v.port q).attention }

/-- A grant slot after a close (R90), or after a close by force (R166). -/
def Grant.closed (forced : Bool) (k : GSlot) : Grant → Grant
  | .active a r b => if k = 0 ∧ forced = false then .vacant else .revoked a r b
  | .revoked a r b => .revoked a r b
  | .offered _ _ _ => .vacant
  | .vacant => .vacant

/-- The grant slots after a close. -/
def Window.grantsClosed (w : Window) (forced : Bool) : Vector Grant 6 :=
  Tab.mapAll w.grants fun k g => g.closed forced k

/-- The record of the OPEN window in slot `w` after its close (R89 to R91, R94, R166): DRAINING while its drain
set has a member, else RETIRING while a view remains, else VACANT one generation on. -/
def State.closedRecord (s : State) (forced : Bool) (w : WSlot) : Window :=
  let x := { s.window w with
    extents := [], closedLen := (s.window w).extents.length, grants := (s.window w).grantsClosed forced }
  if s.drainAfter w (s.window w).extents ≠ DrainSet.empty then
    { x with
      state := .draining, drain := s.drainAfter w (s.window w).extents,
      retiring := s.retiringAfter w (s.window w).extents }
  else if ∃ k, (x.grant k).isView = true then
    { x with state := .retiring, drain := DrainSet.empty, retiring := [] }
  else Window.vacantAt ((s.window w).gen + 1)

end Sys2Proof.Machine

/-! ### Reset pins -/

/-- R1, R16, R24, R40, R45, R46, R64, R119, R137: RESETN_RELEASE gives every state its power-on value, for
every setting of the straps; the ARSTn pins keep their levels and the queue stays. That it does so in every state,
whether or not RESETn was asserted before, is the model's choice (log 15). -/
def Obligations.ReleaseGivesPowerOnState : Prop :=
  ∀ (k : Straps) (s : State), ∃ t, exec (.resetnRelease k) s = .next t ∧
    t.resetn = false ∧ t.straps = k ∧ t.pending = s.pending ∧
    (∀ w : WSlot, t.window w = Window.vacantAt 0) ∧
    (∀ p : Port, t.port p = PortUnit.powerOn (s.port p).arstn) ∧
    (∀ p : Port, t.account p = if p = k.supervisor then ⟨16, 1024, 2⟩ else ⟨0, 0, 2⟩) ∧
    (∀ e : Extent, t.entry e = ⟨.dirty, 0, false⟩) ∧
    t.freeList = [] ∧ t.wipeList = List.finRange 1024 ∧ t.relocList = [] ∧ t.threshold = 4 ∧
    t.lastServed = 5 ∧ t.clearRec = none ∧ t.wpe = .idle ∧ t.rle = .idle ∧
    t.bankReady = false ∧ t.unit = none ∧ (∀ r : Fin 4, Tab.get t.lastGranted r = 5) ∧
    t.prevGrant = none ∧ t.wipeWait = 0 ∧ t.refreshPending = false

/-- R119, R126, R77, R120: RESETN_ASSERT abandons the unit in progress, every request and both engines' work,
negates every NOTICE and leaves every word of the bank undefined. Every other register, list, record and slot,
refresh pending with them, waits for the release unchanged, and a second assertion changes nothing: the model's choices (logs 14 and 1). -/
def Obligations.AssertAbandonsWork : Prop :=
  ∀ s : State,
    (s.resetn = false → ∃ t, exec .resetnAssert s = .next t ∧
      t = { s with
        resetn := true, ports := t.ports, wpe := .idle, rle := .idle, abandonHanded := PortSet.none,
        bankReady := false, unit := none, mem := t.mem, epoch := t.epoch } ∧
      (∀ p : Port, t.port p = { s.port p with access := .idle, response := none } ∧ t.notice p = false) ∧
      ∀ x, Memory.stored t.epoch t.mem x = Config.powerOnWord (s.epoch + 1) x) ∧
    (s.resetn = true → exec .resetnAssert s = .next s)

namespace Sys2Proof.Machine

/-- The supervisor's command in progress finished with OK (R68, R69, R161, R173). -/
def State.finishedOk (s : State) (res : Words4) : State :=
  { s with ports := Tab.upd s.ports s.supervisor fun x =>
    { x with
      slot := { x.slot with state := .done .ok, res := res }
      attention := KindSet.add x.attention .done } }

/-- The end of the drain of the window in slot `w` (R94). -/
def State.drainEnded (s : State) (w : WSlot) : State :=
  let u := { s.dirtied (s.window w).retiring with
    windows := Tab.upd s.windows w Window.ended, rle := s.rle.restedFrom (.window w) }
  match (s.window w).owner with
  | some o => u.told o .drained
  | none => u

/-- The end of the drain of CLEAR recorded as `c` (R173). -/
def State.clearEnded (s : State) (c : ClearRecord) : State :=
  let u := { s.dirtied c.retiring with
    windows := Tab.mapAll s.windows fun w x =>
      if w ∈ c.closed then Window.vacantAt (x.gen + 1) else x
    rle := s.rle.restedFrom .clear
    clearRec := none }
  if c.slotLive then u.finishedOk ⟨BitVec.ofNat 32 c.retiring.length, 0, 0, 0⟩ else u

/-- A port has left the drain that its access through the window in slot `w` kept open (R22, R93, R171): that of
CLEAR where the window is under it, else the window's own; the last member ends it. -/
def State.portLeft (s : State) (w : WSlot) (q : Port) : State :=
  match s.clearRec.filter fun c => decide (w ∈ c.closed) with
  | some c =>
    let d := c.drain.remove (.port q)
    if c.drain.ports.has q = false then s
    else if d = DrainSet.empty then s.clearEnded c
    else { s with clearRec := some { c with drain := d } }
  | none =>
    let d := (s.window w).drain.remove (.port q)
    if (s.window w).drain.ports.has q = false then s
    else if d = DrainSet.empty then s.drainEnded w
    else { s with windows := Tab.upd s.windows w fun x => { x with drain := d } }

/-- The hold wait on a port ends, and with it its HOLD where the slot still waits for it (R161). -/
def State.holdWaitEnded (s : State) (q : Port) : State :=
  let u := { s with ports := Tab.upd s.ports q fun x => { x with holdWait := .absent } }
  match (s.port q).holdWait with
  | .absent => s
  | .present false => u
  | .present true => u.finishedOk Words4.zero

/-- A port's slot aborted at its reset (R64, R70); with the Supervisor Port's, a HOLD or CLEAR in progress goes on
without a slot (R161, R165, R173). -/
def State.slotAborted (s : State) (q : Port) : State :=
  { s with
    ports := Tab.mapAll s.ports fun p x =>
      { x with
        slot := if p = q then Slot.cleared else x.slot
        holdWait := if q = s.supervisor ∧ x.holdWait ≠ .absent then .present false else x.holdWait }
    clearRec := if q = s.supervisor then s.clearRec.map fun c => { c with slotLive := false } else s.clearRec }

/-- A port's access at its reset (R60, R161, R164): STALLED is dropped and leaves the drain and the hold wait that
waited for it; ISSUED becomes ORPHANED. -/
def State.accessReset (s : State) (q : Port) : State :=
  let put (x : Access) : State := { s with ports := Tab.upd s.ports q fun u => { u with access := x } }
  match (s.port q).access with
  | .idle => s
  | .stalled _ a => ((put .idle).portLeft a.handle.slot q).holdWaitEnded q
  | .issued a => put (.orphaned a)
  | .orphaned _ => s

/-- The reset of `q` closes the window in slot `w` (R165). -/
abbrev State.Closes (u : State) (q : Port) (w : WSlot) : Prop :=
  (u.window w).state = .opened ∧ (u.window w).owner = some q

/-- A window that the reset of `q` does not close (R98, R165): every view and offer of `q` VACANT, and a RETIRING
window VACANT with its last view, one generation on (the model's choice against R1, log 42); a window without a part
of `q` is left alone. -/
def Window.vacatedBy (x : Window) (q : Port) : Window :=
  let y := { x with grants := Tab.mapAll x.grants fun _ g => if g.agent = some q then .vacant else g }
  if ∀ k, (x.grant k).agent ≠ some q then x
  else if x.state = .retiring ∧ ∀ k, (y.grant k).isView = false then Window.vacantAt (x.gen + 1)
  else y

/-- The windows closed at the reset of `q` and their extents, Relocation List entries and relocation (R33, R38,
R89, R91, R94, R149, R165), `u` being the part after the effects on slot and access. The closes come in an order
that R165 leaves open (log 10); a window left VACANT is one generation on (log 42). -/
def ResetCloses (u v : State) (q : Port) : Prop :=
  (∀ w, u.Closes q w → v.window w = u.closedRecord false w) ∧
  (∀ w, u.Closes q w → ∀ e ∈ u.retiringAfter w (u.window w).extents, v.entry e =
    { u.entry e with
      st := if u.drainAfter w (u.window w).extents = DrainSet.empty then .dirty else .retiring }) ∧
  (∀ e, (∀ w, u.Closes q w → e ∉ u.retiringAfter w (u.window w).extents) → v.entry e = u.entry e) ∧
  v.relocList = u.relocList.filter
    (fun e => decide (∀ w, u.Closes q w → e ∉ (u.window w).extents)) ∧
  (∃ order : List WSlot, order.Nodup ∧
    (∀ w, w ∈ order ↔ u.Closes q w ∧ u.drainAfter w (u.window w).extents = DrainSet.empty) ∧
    v.wipeList = u.wipeList ++ order.flatMap fun w => u.retiringAfter w (u.window w).extents) ∧
  (∀ w, u.Closes q w → u.engineAfter w (u.window w).extents ≠ u.rle →
    v.rle = u.engineAfter w (u.window w).extents) ∧
  ((∀ w, u.Closes q w → u.engineAfter w (u.window w).extents = u.rle) → v.rle = u.rle) ∧
  v.abandonHanded =
    if ∃ w, u.Closes q w ∧ u.targetLeaving (u.window w).extents ≠ [] then PortSet.all else u.abandonHanded

/-- The reset of port `q` caused by port `cause` (R60, R64, R74, R77, R161, R163 to R165): `v` is the part before
what follows the take at once. Slot and access first (log 35), then the windows; the attention that R165 gives to
other ports, none of OFFERS, VIEWS and GRANTS to the port whose command it is (R76; log 20). Every other part of
the state is as it was. -/
def PortResetDone (s v : State) (q cause : Port) : Prop :=
  ∃ u, u = (s.slotAborted q).accessReset q ∧
  v = { u with
    windows := v.windows, extents := v.extents, wipeList := v.wipeList, relocList := v.relocList, rle := v.rle,
    abandonHanded := v.abandonHanded, ports := v.ports, freeIdx := v.freeIdx } ∧
  ResetCloses u v q ∧
  (∀ w, ¬ u.Closes q w → v.window w = (u.window w).vacatedBy q) ∧
  v.port q = { u.port q with attention := 0, mask := 0, fault := none, response := none } ∧
  (∀ r, r ≠ q → v.port r = { u.port r with attention := (v.port r).attention }) ∧
  (∀ r k, r ≠ q → (KindSet.has (v.port r).attention k = true ↔
    KindSet.has (u.port r).attention k = true ∨
    (r ≠ cause ∧ k = .views ∧ ∃ w, u.Closes q w ∧ ∃ j x b, j ≠ 0 ∧ (u.window w).grant j = .active r x b) ∨
    (r ≠ cause ∧ k = .offers ∧ ∃ w, u.Closes q w ∧ ∃ j x n, (u.window w).grant j = .offered r x n) ∨
    (r ≠ cause ∧ k = .grants ∧ ∃ w, u.Closes r w ∧ ∃ j, ((u.window w).grant j).agent = some q) ∨
    (r = s.supervisor ∧ k = .moved ∧ ∃ w, u.Closes q w ∧ u.targetLeaving (u.window w).extents ≠ []))) ∧
  v.ownedWindows q = 0 ∧ v.ownedExtents q = 0 ∧ v.viewsHeld q = 0 ∧ v.offersTo q = []

/-- The state with the level of port `p`'s pin ARSTn set. -/
def State.withArstn (s : State) (p : Port) (level : Bool) : State :=
  { s with ports := Tab.upd s.ports p fun u => { u with arstn := level } }

/-- The invariants of windows and views. -/
def State.WindowsInv (s : State) : Prop := s.WindowsWf ∧ s.ViewsOk

/-- The invariants of the pool of extents, outside RESETn. -/
def State.PoolInv (s : State) : Prop :=
  s.WindowsWf ∧ (s.resetn = false →
    s.ListsAgree ∧ s.PlacesAgree ∧ s.PlacesCurrent ∧ s.EngineAgrees ∧ s.RetiringAgrees)

end Sys2Proof.Machine

/-- R163, R164, R165: the assertion of ARSTn of a port that is not IN RESET resets it, in every state whose
windows and extents agree, and leaves it IN RESET; a second assertion is no second reset; one under RESETn sets
the pin alone; the release makes the port RUNNING and changes nothing else. Model's choices: the order of the closes
and of the reset's effects (logs 10, 35), the causing port not told (log 20), the place of a target abandoned
earlier (log 36), the generation raised where a slot returns to VACANT (R6, R98 against R1, log 42). -/
def Obligations.ArstnPinResetsPort : Prop :=
  ∀ (p : Port) (s : State),
    ((s.port p).arstn = false → s.resetn = false → s.PoolInv →
      ∃ v, PortResetDone (s.withArstn p true) v p p ∧ exec (.arstnAssert p) s = .next v.settle) ∧
    ((s.port p).arstn = false → s.resetn = true →
      exec (.arstnAssert p) s = .next (s.withArstn p true)) ∧
    ((s.port p).arstn = true → exec (.arstnAssert p) s = .next s) ∧
    exec (.arstnRelease p) s = .next (s.withArstn p false)

/-- R163 to R165: RESET PORT answers BAD_RANGE for no port and for the Supervisor Port; for every other port it
resets it at the take, in every state whose windows and extents agree, and is finished with OK; the port's pin
keeps its level. Model's choices: as for ARSTn (logs 10, 20, 35, 36, 42). -/
def Obligations.ResetPortResetsNamedPort : Prop :=
  ∀ (s : State) (p : Port), p = s.supervisor → s.Due p 0x45 →
    ((6 ≤ (s.args p).w0.toNat ∨ (s.args p).w0.toNat = p.val) →
      exec (.resetPort p) s = .next (s.answered p .badRange Words4.zero)) ∧
    (∀ q : Port, (s.args p).w0.toNat = q.val → q ≠ p → s.PoolInv →
      ∃ v, PortResetDone { s with lastServed := p } v q p ∧ (v.port q).arstn = (s.port q).arstn ∧
        exec (.resetPort p) s = .next (State.answered v.settle p .ok Words4.zero))

/-! ### Requests at a port -/

namespace Sys2Proof.Machine

/-- A refusal with DENY (R62, R174): the response with 0 on APn_RD; an empty fault record filled and FAULT
added, a filled one marked LATER. -/
def State.denied (s : State) (p : Port) (r : Request) (k : FaultKind) (h : Option Handle) : State :=
  { s with ports := Tab.upd s.ports p fun u =>
      match u.fault with
      | none =>
        { u with
          response := some ⟨.deny, some 0⟩
          fault := some ⟨k, r.addr, decide (r.op ≠ .read), h, false⟩
          attention := KindSet.add u.attention .fault }
      | some f => { u with response := some ⟨.deny, some 0⟩, fault := some { f with later := true } } }

/-- A RETRY (R62, R174): the response with 0 on APn_RD and nothing else. -/
def State.turnedAway (s : State) (p : Port) : State :=
  { s with ports := Tab.upd s.ports p fun u => { u with response := some ⟨.retry, some 0⟩ } }

/-- A port's own words changed by `f`, answered DONE. -/
def State.servedDone (s : State) (p : Port) (data : Option Word) (f : PortUnit → PortUnit) : State :=
  { s with ports := Tab.upd s.ports p fun u => { f u with response := some ⟨.done, data⟩ } }

/-- The port's access is ORPHANED. -/
def Access.isOrphaned : Access → Bool
  | .orphaned _ => true
  | .idle | .stalled _ _ | .issued _ => false

end Sys2Proof.Machine

/-- R49 to R52: a view-space request is refused at the first of its checks that fails, and nothing but the
port's response, fault record and FAULT changes. -/
def Obligations.ViewRequestRefusedInOrder : Prop :=
  ∀ (p : Port) (r : Request) (s : State), s.canArrive p = true → r.image ≠ 15 →
    (r.misaligned = true → exec (.viewSpaceRequest p r) s = .next (s.denied p r .align none)) ∧
    (r.misaligned = false → (s.port p).hold = true →
      exec (.viewSpaceRequest p r) s = .next (s.turnedAway p)) ∧
    (r.misaligned = false → (s.port p).hold = false → (s.port p).access.isOrphaned = true →
      exec (.viewSpaceRequest p r) s = .next (s.turnedAway p)) ∧
    (r.misaligned = false → (s.port p).hold = false → (s.port p).access = .idle →
      (s.lookup p r.imageOffset = .noView →
        exec (.viewSpaceRequest p r) s = .next (s.denied p r .miss none)) ∧
      (∀ v, s.lookup p r.imageOffset = .revoked v →
        exec (.viewSpaceRequest p r) s = .next (s.denied p r .revoked (some v.handle))) ∧
      (∀ v o e b, s.lookup p r.imageOffset = .active v o e b → v.rights = .read → r.op ≠ .read →
        exec (.viewSpaceRequest p r) s = .next (s.denied p r .rights (some v.handle))))

namespace Sys2Proof.Machine

/-- An access as a port re-translates it at the swap (R55, R147): the extent is the entry of the window's extent
list at its ordinal, or, where the list has none any more, the former target (log 31). -/
def State.atOrdinal (s : State) (tgt : Extent) (a : AccessRec) : AccessRec :=
  match (s.window a.handle.slot).extents[a.ordinal]? with
  | some e => { a with ext := e }
  | none => { a with ext := tgt }

/-- Where the engine lets an admitted access of port `p` go, by extent and block (R142); an access on the former
source at a port that has taken the swap is re-translated and issued at once (R147; log 31). -/
def State.placed (s : State) (p : Port) (a : AccessRec) : Access :=
  match s.rle with
  | .copying src _ ptr => if a.ext = src ∧ a.byteAddr / 64 = ptr then .stalled .block a else .issued a
  | .cutover src tgt _ _ _ _ (.taken _ handed) =>
    if a.ext ≠ src then .issued a
    else if handed.has p then .stalled .cutover a
    else .issued (s.atOrdinal tgt a)
  | .cutover src _ _ _ _ _ .notRequested => if a.ext = src then .stalled .cutover a else .issued a
  | .cutover src _ _ _ _ _ .requested => if a.ext = src then .stalled .cutover a else .issued a
  | .idle | .waiting | .abandoning _ _ _ _ _ => .issued a

end Sys2Proof.Machine

/-- R53, R142: a request through an ACTIVE view whose rights cover it is admitted: its record filled from the
lookup, the access ISSUED or STALLED as the engine answers, no response yet, and no window, extent, account or
word of the bank changed. That an access on a former source is issued re-translated at a port that has taken the
swap is R147 and, where the source is bound again, the model's choice (log 31). -/
def Obligations.ViewRequestAdmitted : Prop :=
  ∀ (p : Port) (r : Request) (s : State) (v : ViewAnswer) (o : Nat) (e : Extent) (b : Nat),
    s.canArrive p = true → r.image ≠ 15 → r.misaligned = false → (s.port p).hold = false →
    (s.port p).access = .idle → s.lookup p r.imageOffset = .active v o e b →
    (v.rights = .readWrite ∨ r.op = .read) →
    ∃ t, exec (.viewSpaceRequest p r) s = .next t ∧
      (t.port p).access = s.placed p
        { addr := r.addr, op := r.op, size := sizeOf r.size, handle := v.handle, ordinal := o, ext := e,
          byteAddr := b } ∧
      t.port p = { s.port p with access := (t.port p).access, response := none } ∧
      (∀ q : Port, q ≠ p → t.port q = s.port q) ∧
      t.windows = s.windows ∧ t.extents = s.extents ∧ t.freeList = s.freeList ∧ t.wipeList = s.wipeList ∧
      t.relocList = s.relocList ∧ t.rle = s.rle ∧ t.wpe = s.wpe ∧ t.clearRec = s.clearRec ∧ t.kept = s.kept

/-- R19, R20: with the views well placed (R14), the lookup answers from the one view that covers the offset:
no view where none does, and else the view's window handle, slot number, state, rights and base; for an ACTIVE one
also the ordinal, the extent of the window's extent list at that ordinal, and the byte within the extent. -/
def Obligations.LookupFindsCoveringView : Prop :=
  ∀ (s : State) (p : Port) (off : Nat), s.ViewsOk → s.WindowsWf →
    ((∀ v ∈ s.viewsOf p, s.covers v off = false) → s.lookup p off = .noView) ∧
    (∀ v ∈ s.viewsOf p, s.covers v off = true → v.revoked = true →
      s.lookup p off = .revoked ⟨s.handleOf v.window, v.slot, v.rights, v.base⟩) ∧
    (∀ v ∈ s.viewsOf p, s.covers v off = true → v.revoked = false →
      ∃ e, (s.window v.window).extents[(off - v.base) / s.extentBytes]? = some e ∧
        s.lookup p off =
          .active ⟨s.handleOf v.window, v.slot, v.rights, v.base⟩ ((off - v.base) / s.extentBytes) e
            ((off - v.base) % s.extentBytes))

/-- R49, R50: a request to the control image outside offsets 0x00 to 0x3F is answered DENY with APERTURE, and
one within them that is no aligned word DENY with ALIGN. R174: the codes of the four responses on APn_RSP[1:0],
and of the direction on APn_WR. -/
def Obligations.ControlImageRefusal : Prop :=
  ∀ (p : Port) (r : Request) (s : State), s.canArrive p = true → r.image = 15 →
    (0x3F < r.imageOffset → exec (.controlImageRefused p r) s = .next (s.denied p r .aperture none)) ∧
    (r.imageOffset ≤ 0x3F → r.alignedWord = false →
      exec (.controlImageRefused p r) s = .next (s.denied p r .align none)) ∧
    (s.denied p r .align none).responseLines p = some (0b10, some 0) ∧
    (BusCode.rsp .done = 0b00 ∧ BusCode.rsp .retry = 0b01 ∧ BusCode.rsp .deny = 0b10 ∧
      BusCode.rsp .derr = 0b11) ∧
    (∀ (sz : BitVec 2) (a d : Word), requestOfBus 1 sz a d = ⟨.write d, sz, a⟩ ∧
      requestOfBus 0 sz a d = ⟨.read, sz, a⟩)

/-- R63, R74, R77: the three words with a write effect of their own; their DONE carries no data, which is the
model's choice (log 12). The NOTICE output is asserted exactly while RESETn is negated and the attention set and
the notice mask share a kind. -/
def Obligations.PortWordWrites : Prop :=
  ∀ (p : Port) (v : Word) (s : State), s.canArrive p = true →
    exec (.attentionWordWrite p v) s =
      .next (s.servedDone p none fun u => { u with attention := u.attention &&& ~~~ v.setWidth 9 }) ∧
    exec (.noticeWordWrite p v) s =
      .next (s.servedDone p none fun u => { u with mask := v.setWidth 9 }) ∧
    exec (.faultRecordClear p v) s = .next (s.servedDone p none fun u => { u with fault := none }) ∧
    ∀ (x : State) (q : Port), x.notice q = true ↔ x.resetn = false ∧
      ∃ k : Kind, KindSet.has (x.port q).attention k = true ∧ KindSet.has (x.port q).mask k = true

namespace Sys2Proof.Machine

/-- The slot is BUSY, waiting or in progress (R64). -/
abbrev Slot.Busy (x : Slot) : Prop := x.state = .waiting ∨ x.state = .inProgress

/-- Argument word 0 to 3 of a slot. -/
def Words4.get (a : Words4) (i : Fin 4) : Word :=
  match i with
  | 0 => a.w0
  | 1 => a.w1
  | 2 => a.w2
  | 3 => a.w3

end Sys2Proof.Machine

/-- R65, R176: writes of control words without a behaviour of their own. An argument word takes the value
unless the slot is BUSY, when RETRY is answered; RES0 to RES3, fault word 1 and the unused offsets change
nothing and are answered DONE; the slot word while BUSY is answered RETRY. A DONE to a write carries no data: the
model's choice (log 12). -/
def Obligations.ControlWordWriteEffects : Prop :=
  ∀ (p : Port) (r : Request) (v : Word) (s : State), s.canArrive p = true → r.servedControl = true →
    r.op = .write v →
    (∀ i : Fin 4, r.imageOffset = 4 + 4 * i.val →
      ((s.port p).slot.Busy → exec (.controlWordWrite p r) s = .next (s.turnedAway p)) ∧
      (¬ (s.port p).slot.Busy → ∃ a : Words4, a.get i = v ∧
        (∀ j, j ≠ i → a.get j = (s.port p).slot.args.get j) ∧
        exec (.controlWordWrite p r) s =
          .next (s.servedDone p none fun u => { u with slot := { u.slot with args := a } }))) ∧
    ((0x14 ≤ r.imageOffset ∧ r.imageOffset ≤ 0x20 ∨ 0x30 ≤ r.imageOffset) →
      exec (.controlWordWrite p r) s = .next (s.servedDone p none id)) ∧
    (r.imageOffset = 0 → (s.port p).slot.Busy →
      exec (.controlWordWrite p r) s = .next (s.turnedAway p))

namespace Sys2Proof.Machine

/-- The numbers of the slot states (R176). -/
def slotStateNumber : SlotState → Nat
  | .idle => 0
  | .waiting => 1
  | .inProgress => 1
  | .done _ => 2

/-- The numbers of the status codes (R73). -/
def statusNumber : Status → Nat
  | .ok => 0
  | .badCommand => 1
  | .noRight => 2
  | .noWindow => 3
  | .badRange => 4
  | .quota => 5
  | .viewLimit => 6
  | .overlap => 7
  | .tableFull => 8
  | .noSpace => 9
  | .duplicate => 11
  | .noOffer => 12
  | .state => 13

/-- The numbers of the fault kinds (R176). -/
def faultNumber : FaultKind → Nat
  | .miss => 1
  | .revoked => 2
  | .rights => 3
  | .align => 4
  | .aperture => 5
  | .data => 6
  | .poison => 7

/-- The bits of the attention kinds (R176). -/
def kindBit : Kind → Nat
  | .offers => 0
  | .views => 1
  | .grants => 2
  | .fault => 3
  | .hold => 4
  | .drained => 5
  | .done => 6
  | .moved => 7
  | .quarantined => 8

/-- The numbers of the rights (R177). -/
def rightsNumber : Rights → Nat
  | .read => 0
  | .readWrite => 1

/-- The numbers of the window states (R177). -/
def windowNumber : WinState → Nat
  | .vacant => 0
  | .opened => 1
  | .draining => 2
  | .retiring => 3

/-- The numbers of the grant-slot states (R177). -/
def grantNumber : Grant → Nat
  | .vacant => 0
  | .offered _ _ _ => 1
  | .active _ _ _ => 2
  | .revoked _ _ _ => 3

/-- The numbers of the extent states (R177). -/
def extentNumber : ExtState → Nat
  | .free => 0
  | .bound _ _ => 1
  | .moving _ _ => 2
  | .target => 3
  | .retiring => 4
  | .dirty => 5
  | .wiping => 6
  | .quarantined _ => 7

/-- The numbers of the quarantine causes, 0 where there is none (R177). -/
def causeNumber : ExtState → Nat
  | .quarantined .verify => 1
  | .quarantined .relocated => 2
  | .quarantined .supervisor => 3
  | .free | .bound _ _ | .moving _ _ | .target | .retiring | .dirty | .wiping => 0

/-- The numbers of the Relocation Engine's phases (R177). -/
def rleNumber : Rle → Nat
  | .idle => 0
  | .waiting => 1
  | .copying _ _ _ => 2
  | .cutover _ _ _ _ _ _ _ => 3
  | .abandoning _ _ _ _ _ => 4

/-- The numbers of the Wipe Engine's phases (R177). -/
def wpeNumber : Wpe → Nat
  | .idle => 0
  | .writing _ _ => 1
  | .verifying _ _ _ => 2

end Sys2Proof.Machine

/-- R65, R74, R77, R176: the read of a control word is answered DONE with the word as it stands and changes
nothing. The slot word holds code, state and status in its fields, by the numbers of R73 and R176; the attention
and notice words hold one bit for each kind; fault word 0 of a filled record holds handle, kind, direction and
LATER. Every other bit of these words reads 0. That reads are served under the row CONTROL_WORD_WRITE is the model's choice (log 21). -/
def Obligations.ControlWordReads : Prop :=
  ∀ (p : Port) (r : Request) (s : State), s.canArrive p = true → r.servedControl = true → r.op = .read →
    ∃ d : Word, exec (.controlWordWrite p r) s = .next (s.servedDone p (some d) id) ∧
      (r.imageOffset = 0 →
        field d 0 8 = (s.port p).slot.code.toNat ∧ field d 8 2 = slotStateNumber (s.port p).slot.state ∧
        field d 16 4 = match (s.port p).slot.state with
          | .done st => statusNumber st
          | .idle | .waiting | .inProgress => 0) ∧
      (r.imageOffset = 0 → ZeroOutside d [(0, 8), (8, 2), (16, 4)]) ∧
      (∀ i : Fin 4, r.imageOffset = 4 + 4 * i.val → d = (s.port p).slot.args.get i) ∧
      (∀ i : Fin 4, r.imageOffset = 0x14 + 4 * i.val → d = (s.port p).slot.res.get i) ∧
      (r.imageOffset = 0x24 → d.toNat < 512 ∧
        ∀ k, field d (kindBit k) 1 = (KindSet.has (s.port p).attention k).toNat) ∧
      (r.imageOffset = 0x28 → d.toNat < 512 ∧
        ∀ k, field d (kindBit k) 1 = (KindSet.has (s.port p).mask k).toNat) ∧
      ((s.port p).fault = none → r.imageOffset = 0x2C ∨ r.imageOffset = 0x30 → d = 0) ∧
      (∀ f, (s.port p).fault = some f → r.imageOffset = 0x2C →
        field d 16 3 = faultNumber f.kind ∧ field d 20 1 = f.isWrite.toNat ∧ field d 31 1 = f.later.toNat ∧
        field d 0 16 = (match f.handle with | some h => h.gen.toNat * 256 + h.slot.val | none => 0)) ∧
      (r.imageOffset = 0x2C → ZeroOutside d [(0, 16), (16, 3), (20, 1), (31, 1)]) ∧
      (∀ f, (s.port p).fault = some f → r.imageOffset = 0x30 → d = f.addr) ∧
      (0x34 ≤ r.imageOffset → d = 0)

/-- R66: an issue in IDLE or DONE records the code, latches the arguments as they stand, sets the results to 0,
makes the status absent and puts the slot in BUSY, waiting; while BUSY it is answered RETRY. The DONE of the issue carries no data:
the model's choice (log 12). -/
def Obligations.IssueMakesCommandWait : Prop :=
  ∀ (p : Port) (v : Word) (s : State), s.canArrive p = true →
    (¬ (s.port p).slot.Busy → exec (.commandIssue p v) s =
      .next (s.servedDone p none fun u =>
        { u with slot := { state := .waiting, code := v.setWidth 8, args := u.slot.args, res := ⟨0, 0, 0, 0⟩ } })) ∧
    ((s.port p).slot.Busy → exec (.commandIssue p v) s = .next (s.turnedAway p))

/-! ### Windows -/

/-- R66, R72: a code that names no command is finished with BAD_COMMAND. -/
def Obligations.UndefinedCodeRefused : Prop :=
  ∀ (p : Port) (c : BitVec 8) (s : State), s.Due p c →
    (∀ d ∈ [0x01#8, 0x02, 0x03, 0x04, 0x10, 0x11, 0x12, 0x13, 0x14, 0x15, 0x20, 0x21, 0x22, 0x23, 0x24, 0x40,
      0x41, 0x42, 0x43, 0x44, 0x45, 0x46, 0x47, 0x48, 0x49, 0x4A, 0x4B, 0x4F], c ≠ d) →
    exec (.undefinedCommand p) s = .next (s.answered p .badCommand Words4.zero)

namespace Sys2Proof.Machine

/-- The status of an OPEN by the table of R78, the first failing check giving it. -/
def State.openStatus (s : State) (p : Port) (n base : Nat) : Status :=
  if ¬ (1 ≤ n ∧ n ≤ 128) then .badRange
  else if ¬ (base < 0x10000000 ∧ base % s.extentBytes = 0) then .badRange
  else if ¬ (base + n * s.extentBytes - 1 ≤ 0x0FFFFFFF) then .badRange
  else if ¬ (s.ownedWindows p < (s.account p).windowQuota) then .quota
  else if ¬ (s.ownedExtents p + n ≤ (s.account p).extentQuota) then .quota
  else if ¬ (s.viewsHeld p < 16) then .viewLimit
  else if ∃ v ∈ s.viewsOf p, s.Overlap base n v then .overlap
  else if ∀ w, (s.window w).state ≠ .vacant then .tableFull
  else if s.freeList.length < n then .noSpace
  else .ok

/-- Extents taken from the Free List become BOUND to a window from an ordinal on, with count 0 (R28). -/
def State.bound (s : State) (h : Handle) (first : Nat) (l : List Extent) : Vector Entry 1024 :=
  Tab.mapAll s.extents fun e x =>
    if e ∈ l then { x with st := .bound h (first + l.idxOf e), count := 0 } else x

end Sys2Proof.Machine

/-- R78: an OPEN that fails a check is finished with the status of the first that fails, and changes nothing
else. -/
def Obligations.OpenRefusedAtFirstFailingCheck : Prop :=
  ∀ (p : Port) (s : State), s.Due p 0x01 →
    s.openStatus p (s.args p).w0.toNat (s.args p).w1.toNat ≠ .ok →
    exec (.openWindow p) s =
      .next (s.answered p (s.openStatus p (s.args p).w0.toNat (s.args p).w1.toNat) Words4.zero)

/-- R28, R79: an OPEN that passes takes the lowest VACANT slot and the oldest Free List entries, in order, and
writes the window record; RES0 holds the handle. -/
def Obligations.OpenCreatesWindow : Prop :=
  ∀ (p : Port) (s : State), s.Due p 0x01 →
    s.openStatus p (s.args p).w0.toNat (s.args p).w1.toNat = .ok →
    ∃ w : WSlot, (s.window w).state = .vacant ∧ (∀ v, v < w → (s.window v).state ≠ .vacant) ∧
      exec (.openWindow p) s = .next
        (State.answered
          { s with
            freeList := s.freeList.drop (s.args p).w0.toNat
            extents := s.bound (s.handleOf w) 0 (s.freeList.take (s.args p).w0.toNat)
            windows := Tab.upd s.windows w fun x =>
              { state := .opened, gen := x.gen, owner := some p
                extents := s.freeList.take (s.args p).w0.toNat, closedLen := 0
                grants :=
                  #v[.active p .readWrite (s.args p).w1.toNat, .vacant, .vacant, .vacant, .vacant, .vacant]
                drain := DrainSet.empty, retiring := [] } }
          p .ok ⟨BitVec.ofNat 32 ((s.window w).gen.toNat * 256 + w.val), 0, 0, 0⟩)

/-- R7: a handle argument is valid when bit 7 is 0, the slot in bits 6:0 is not VACANT and the generation in
bits 15:8 is the slot's; higher bits play no part. -/
def Obligations.HandleValidity : Prop :=
  ∀ (s : State) (a : Word) (w : WSlot), validHandle s a = some w ↔
    field a 7 1 = 0 ∧ field a 0 7 = w.val ∧ (s.window w).state ≠ .vacant ∧
      field a 8 8 = (s.window w).gen.toNat

namespace Sys2Proof.Machine

/-- R81 step 8: some view of the window, lengthened to `len` extents, passes the end of view space. -/
abbrev State.GrowPassesEnd (s : State) (w : WSlot) (len : Nat) : Prop :=
  ∃ a : Port, ∃ v ∈ s.viewsOf a, v.window = w ∧ 0x0FFFFFFF < v.base + len * s.extentBytes - 1

/-- R81 step 8: some view of the window, lengthened to `len` extents, meets another view of its agent. -/
abbrev State.GrowOverlaps (s : State) (w : WSlot) (len : Nat) : Prop :=
  ∃ a : Port, ∃ v ∈ s.viewsOf a, v.window = w ∧
    ∃ u ∈ s.viewsOf a, ¬ (u.window = v.window ∧ u.slot = v.slot) ∧ s.Overlap v.base len u

/-- The status of a GROW by the table of R81, its handle being valid. -/
def State.growStatus (s : State) (p : Port) (w : WSlot) (n : Nat) : Status :=
  if ¬ (1 ≤ n ∧ n ≤ 127) then .badRange
  else if (s.window w).owner ≠ some p then .noRight
  else if ¬ ((s.window w).state = .opened ∧ (s.window w).drain = DrainSet.empty ∧
      ∀ k, ((s.window w).grant k).isRevoked = false) then .state
  else if ¬ ((s.window w).extents.length + n ≤ 128) then .badRange
  else if ¬ (s.ownedExtents p + n ≤ (s.account p).extentQuota) then .quota
  else if s.GrowPassesEnd w ((s.window w).extents.length + n) then .badRange
  else if s.GrowOverlaps w ((s.window w).extents.length + n) then .overlap
  else if s.freeList.length < n then .noSpace
  else .ok

end Sys2Proof.Machine

/-- R81, R82: GROW answers NO_WINDOW for an invalid handle and otherwise the status of its table; passing, it
appends the oldest Free List entries to the extent list and changes nothing but that, the Free List, the taken
extents and the caller's slot. -/
def Obligations.GrowAppendsExtents : Prop :=
  ∀ (p : Port) (s : State), s.Due p 0x02 →
    (validHandle s (s.args p).w0 = none →
      exec (.grow p) s = .next (s.answered p .noWindow Words4.zero)) ∧
    (∀ w, validHandle s (s.args p).w0 = some w →
      (s.growStatus p w (s.args p).w1.toNat ≠ .ok →
        exec (.grow p) s = .next (s.answered p (s.growStatus p w (s.args p).w1.toNat) Words4.zero)) ∧
      (s.growStatus p w (s.args p).w1.toNat = .ok →
        exec (.grow p) s = .next
          (State.answered
            { s with
              freeList := s.freeList.drop (s.args p).w1.toNat
              extents := s.bound (s.handleOf w) (s.window w).extents.length
                (s.freeList.take (s.args p).w1.toNat)
              windows := Tab.upd s.windows w fun x =>
                { x with extents := x.extents ++ s.freeList.take (s.args p).w1.toNat } }
            p .ok ⟨BitVec.ofNat 32 ((s.window w).extents.length + (s.args p).w1.toNat), 0, 0, 0⟩)))

/-- R84 to R87, R94: SHRINK. Refused by its table; passing, the highest ordinals leave and the views keep their
bases; the extents wait for the drain, or join the Wipe List at once, when the owner has DRAINED; a relocation of
one of them is abandoned (R149). What a take brings about at once follows (R29, R41, R139, R140; log 2). Behind
the leaving extents stands the target of a relocation abandoned at an earlier take: R95 as the model deduces it
(log 36). -/
def Obligations.ShrinkRemovesHighestOrdinals : Prop :=
  ∀ (p : Port) (s : State), s.Due p 0x03 →
    (validHandle s (s.args p).w0 = none →
      exec (.shrink p) s = .next (s.answered p .noWindow Words4.zero)) ∧
    (∀ (w : WSlot) (n : Nat) (l : List Extent), validHandle s (s.args p).w0 = some w →
      n = (s.args p).w1.toNat → l = (s.window w).extents.drop ((s.window w).extents.length - n) →
      (¬ (1 ≤ n ∧ n ≤ 127) → exec (.shrink p) s = .next (s.answered p .badRange Words4.zero)) ∧
      (1 ≤ n → n ≤ 127 → (s.window w).owner ≠ some p →
        exec (.shrink p) s = .next (s.answered p .noRight Words4.zero)) ∧
      (1 ≤ n → n ≤ 127 → (s.window w).owner = some p →
        ¬ ((s.window w).state = .opened ∧ (s.window w).drain = DrainSet.empty) →
        exec (.shrink p) s = .next (s.answered p .state Words4.zero)) ∧
      (1 ≤ n → n ≤ 127 → (s.window w).owner = some p →
        (s.window w).state = .opened → (s.window w).drain = DrainSet.empty →
        (¬ n < (s.window w).extents.length →
          exec (.shrink p) s = .next (s.answered p .badRange Words4.zero)) ∧
        (n < (s.window w).extents.length → s.Waiting w →
          ∃ v, exec (.shrink p) s = .next (State.answered v.settle p .ok
              ⟨BitVec.ofNat 32 ((s.window w).extents.length - n), 0, 0, 0⟩) ∧
            LeavesOthers s v p w ∧ ExtentsLeft s v w l ∧
            v.window w = { s.window w with
              extents := (s.window w).extents.take ((s.window w).extents.length - n)
              drain := s.drainAfter w l
              retiring := if s.drainAfter w l = DrainSet.empty then [] else s.retiringAfter w l } ∧
            Adds s v (fun q k =>
              (q = p ∧ k = .drained ∧ s.drainAfter w l = DrainSet.empty) ∨
              (q = s.supervisor ∧ k = .moved ∧ s.targetLeaving l ≠ [])))))

namespace Sys2Proof.Machine

/-- The close of the OPEN window in slot `w`, owned by `o`, taken for port `p`'s command (R76, R89 to R91, R94,
R166): `v` is the part before what follows the take at once. -/
def Closed (s v : State) (p : Port) (forced : Bool) (w : WSlot) (o : Port) : Prop :=
  LeavesOthers s v p w ∧ ExtentsLeft s v w (s.window w).extents ∧ v.window w = s.closedRecord forced w ∧
  Adds s v (fun q k =>
    (q = o ∧ k = .drained ∧ s.drainAfter w (s.window w).extents = DrainSet.empty) ∨
    (q = s.supervisor ∧ k = .moved ∧ s.targetLeaving (s.window w).extents ≠ []) ∨
    (q ≠ p ∧ k = .views ∧ ∃ j r b, (s.window w).grant j = .active q r b ∧ (j ≠ 0 ∨ forced = true)) ∨
    (q ≠ p ∧ k = .offers ∧ ∃ j r n, (s.window w).grant j = .offered q r n))

end Sys2Proof.Machine

/-- R88 to R91, R94: CLOSE. Refused by its table; passing, the window is closed with slot 0 VACANT, grantee
views REVOKED and offers VACANT, and is DRAINING, RETIRING or VACANT as its drain set and views say; its extents
wait, or join the Wipe List at once; a relocation of one of them is abandoned (R149). Behind its extents stands
the target of a relocation abandoned at an earlier take: R95 as the model deduces it (log 36). -/
def Obligations.CloseEndsWindow : Prop :=
  ∀ (p : Port) (s : State), s.Due p 0x04 →
    (validHandle s (s.args p).w0 = none →
      exec (.close p) s = .next (s.answered p .noWindow Words4.zero)) ∧
    (∀ w : WSlot, validHandle s (s.args p).w0 = some w →
      ((s.window w).owner ≠ some p → exec (.close p) s = .next (s.answered p .noRight Words4.zero)) ∧
      ((s.window w).owner = some p → (s.window w).state ≠ .opened →
        exec (.close p) s = .next (s.answered p .state Words4.zero)) ∧
      ((s.window w).owner = some p → (s.window w).state = .opened → s.Waiting w →
        ∃ v, exec (.close p) s = .next (State.answered v.settle p .ok Words4.zero) ∧ Closed s v p false w p))

/-- R166: FORCE CLOSE by the supervisor closes any agent's OPEN window as CLOSE does, but slot 0 becomes
REVOKED, VIEWS goes to its owner too, and DRAINED to the owner. No VIEWS and no OFFERS go to the supervisor
itself, whose command it is (R76; log 20). Behind the extents stands the target of a relocation abandoned at an
earlier take: R95 as the model deduces it (log 36). -/
def Obligations.ForceCloseEndsWindow : Prop :=
  ∀ (s : State) (p : Port), p = s.supervisor → s.Due p 0x46 →
    (validHandle s (s.args p).w0 = none →
      exec (.forceClose p) s = .next (s.answered p .noWindow Words4.zero)) ∧
    (∀ w : WSlot, validHandle s (s.args p).w0 = some w →
      ((s.window w).state ≠ .opened →
        exec (.forceClose p) s = .next (s.answered p .state Words4.zero)) ∧
      (∀ o, (s.window w).owner = some o → (s.window w).state = .opened → s.Waiting w →
        ∃ v, exec (.forceClose p) s = .next (State.answered v.settle p .ok Words4.zero) ∧
          Closed s v p true w o))

/-! ### Offers and grants -/

namespace Sys2Proof.Machine

/-- R10: no agent has two grant slots in the window. -/
abbrev Window.OneSlotEach (w : Window) : Prop :=
  ∀ (j k : GSlot) (a : Port), (w.grant j).isOf a = true → (w.grant k).isOf a = true → j = k

/-- Grant slot `k` of the window in slot `w` set, everything else as it was. -/
def State.withGrant (s : State) (w : WSlot) (k : GSlot) (g : Grant) : State :=
  { s with windows := Tab.upd s.windows w fun x => { x with grants := Tab.upd x.grants k fun _ => g } }

/-- The status of an OFFER by the table of R99, its handle being valid, `a` the number in ARG1, `r` in ARG2,
`n` in ARG3. -/
def State.offerStatus (s : State) (p : Port) (w : WSlot) (a r n : Nat) : Status :=
  if ¬ (a < 6) then .badRange
  else if ∃ q : Port, q.val = a ∧ (s.window w).owner = some q then .badRange
  else if ¬ (r ≤ 1) then .badRange
  else if ¬ (n ≤ 255) then .badRange
  else if (s.window w).owner ≠ some p then .noRight
  else if (s.window w).state ≠ .opened then .state
  else if ∃ q : Port, q.val = a ∧ (s.port q).arstn = true then .state
  else if ∃ q : Port, q.val = a ∧ ∃ k, ((s.window w).grant k).isOf q = true then .duplicate
  else .ok

end Sys2Proof.Machine

/-- R99, R100: OFFER. Refused by its table; passing, the lowest VACANT slot among 1 to 5 becomes OFFERED with
the agent, rights and lifetime (0: no expiry), the offered agent receives OFFERS, RES0 holds the slot. -/
def Obligations.OfferInvitesAgent : Prop :=
  ∀ (p : Port) (s : State), s.Due p 0x10 →
    (validHandle s (s.args p).w0 = none →
      exec (.offer p) s = .next (s.answered p .noWindow Words4.zero)) ∧
    (∀ (w : WSlot) (st : Status), validHandle s (s.args p).w0 = some w →
      st = s.offerStatus p w (s.args p).w1.toNat (s.args p).w2.toNat (s.args p).w3.toNat →
      (st ≠ .ok → exec (.offer p) s = .next (s.answered p st Words4.zero)) ∧
      (st = .ok → ∀ (a : Port) (k : GSlot), (s.args p).w1.toNat = a.val →
        k ≠ 0 → (s.window w).grant k = .vacant → (∀ j, j ≠ 0 → j < k → (s.window w).grant j ≠ .vacant) →
        exec (.offer p) s = .next
          (State.answered
            ((s.withGrant w k (.offered a
              (if (s.args p).w2.toNat = 0 then .read else .readWrite)
              (if (s.args p).w3.toNat = 0 then none else some (s.args p).w3.toNat))).told a .offers)
            p .ok ⟨BitVec.ofNat 32 k.val, 0, 0, 0⟩)))

/-- R73 (code 10), R99: in a well-formed OPEN window, an agent that is not the owner and has no slot finds a
VACANT slot among 1 to 5. -/
def Obligations.OfferAlwaysFindsVacantSlot : Prop :=
  ∀ (x : Window) (a : Port), x.Wf → x.state = .opened → x.owner ≠ some a →
    (∀ k, (x.grant k).isOf a = false) → ∃ k : GSlot, k ≠ 0 ∧ x.grant k = .vacant

/-- R106: WITHDRAW. Refused by its table; passing, the agent's OFFERED slot is vacated and the agent receives
OFFERS. -/
def Obligations.WithdrawEndsOffer : Prop :=
  ∀ (p : Port) (s : State), s.Due p 0x11 →
    (validHandle s (s.args p).w0 = none →
      exec (.withdraw p) s = .next (s.answered p .noWindow Words4.zero)) ∧
    (∀ w : WSlot, validHandle s (s.args p).w0 = some w → (s.window w).OneSlotEach →
      (6 ≤ (s.args p).w1.toNat → exec (.withdraw p) s = .next (s.answered p .badRange Words4.zero)) ∧
      (∀ a : Port, (s.args p).w1.toNat = a.val →
        ((s.window w).owner ≠ some p →
          exec (.withdraw p) s = .next (s.answered p .noRight Words4.zero)) ∧
        ((s.window w).owner = some p → (s.window w).state ≠ .opened →
          exec (.withdraw p) s = .next (s.answered p .state Words4.zero)) ∧
        ((s.window w).owner = some p → (s.window w).state = .opened →
          (∀ k r n, (s.window w).grant k ≠ .offered a r n) →
          exec (.withdraw p) s = .next (s.answered p .state Words4.zero)) ∧
        ((s.window w).owner = some p → (s.window w).state = .opened →
          ∀ k r n, (s.window w).grant k = .offered a r n →
          exec (.withdraw p) s = .next
            (State.answered ((s.withGrant w k .vacant).told a .offers) p .ok Words4.zero))))

/-- R101, R102: ACCEPT. Refused by its table; passing, the caller's slot becomes ACTIVE at the base with the
offered rights, the owner receives GRANTS, RES0 and RES1 hold size and rights. -/
def Obligations.AcceptMakesView : Prop :=
  ∀ (p : Port) (s : State), s.Due p 0x12 →
    (validHandle s (s.args p).w0 = none →
      exec (.accept p) s = .next (s.answered p .noWindow Words4.zero)) ∧
    (∀ (w : WSlot) (base : Nat), validHandle s (s.args p).w0 = some w → (s.window w).OneSlotEach →
      base = (s.args p).w1.toNat →
      (¬ (base < 0x10000000 ∧ base % s.extentBytes = 0) →
        exec (.accept p) s = .next (s.answered p .badRange Words4.zero)) ∧
      (base < 0x10000000 → base % s.extentBytes = 0 →
        ((∀ k r n, (s.window w).grant k ≠ .offered p r n) →
          exec (.accept p) s = .next (s.answered p .noOffer Words4.zero)) ∧
        (∀ k r n, (s.window w).grant k = .offered p r n →
          (16 ≤ s.viewsHeld p → exec (.accept p) s = .next (s.answered p .viewLimit Words4.zero)) ∧
          (s.viewsHeld p < 16 → 0x0FFFFFFF < base + (s.window w).extents.length * s.extentBytes - 1 →
            exec (.accept p) s = .next (s.answered p .badRange Words4.zero)) ∧
          (s.viewsHeld p < 16 → base + (s.window w).extents.length * s.extentBytes - 1 ≤ 0x0FFFFFFF →
            ((∃ v ∈ s.viewsOf p, s.Overlap base (s.window w).extents.length v) →
              exec (.accept p) s = .next (s.answered p .overlap Words4.zero)) ∧
            (∀ o, (∀ v ∈ s.viewsOf p, ¬ s.Overlap base (s.window w).extents.length v) →
              (s.window w).owner = some o →
              exec (.accept p) s = .next
                (State.answered ((s.withGrant w k (.active p r base)).told o .grants) p .ok
                  ⟨BitVec.ofNat 32 (s.window w).extents.length,
                    (match r with | .read => 0 | .readWrite => 1), 0, 0⟩))))))

/-- R103, all of it: DECLINE. NO_WINDOW, then NO_OFFER; passing, the caller's slot is vacated, the owner
receives GRANTS, the results hold 0, no account changes, and the agent has no slot in the window any more, so
that the owner may offer to it again. -/
def Obligations.DeclineVacatesOffer : Prop :=
  ∀ (p : Port) (s : State), s.Due p 0x13 →
    (validHandle s (s.args p).w0 = none →
      exec (.decline p) s = .next (s.answered p .noWindow Words4.zero)) ∧
    (∀ w : WSlot, validHandle s (s.args p).w0 = some w → (s.window w).OneSlotEach →
      ((∀ k r n, (s.window w).grant k ≠ .offered p r n) →
        exec (.decline p) s = .next (s.answered p .noOffer Words4.zero)) ∧
      (∀ o k r n, (s.window w).owner = some o → (s.window w).grant k = .offered p r n →
        exec (.decline p) s = .next
          (State.answered ((s.withGrant w k .vacant).told o .grants) p .ok Words4.zero) ∧
        (∀ q, (s.withGrant w k .vacant).ownedWindows q = s.ownedWindows q ∧
          (s.withGrant w k .vacant).ownedExtents q = s.ownedExtents q ∧
          (s.withGrant w k .vacant).viewsHeld q = s.viewsHeld q) ∧
        ∀ j, (((s.withGrant w k .vacant).window w).grant j).isOf p = false))

/-- R107: REVOKE by the owner or the supervisor. Refused by its table; passing, the ACTIVE slot becomes REVOKED
with agent, rights and base kept; VIEWS goes to the grantee and, where the supervisor revokes in a window it
does not own, GRANTS to the owner. None of them goes to the caller itself (R76; log 20). -/
def Obligations.RevokeEndsAccess : Prop :=
  ∀ (p : Port) (s : State), s.Due p 0x14 →
    (validHandle s (s.args p).w0 = none →
      exec (.revoke p) s = .next (s.answered p .noWindow Words4.zero)) ∧
    (∀ (w : WSlot) (o : Port), validHandle s (s.args p).w0 = some w → (s.window w).owner = some o →
      (s.window w).OneSlotEach →
      ((6 ≤ (s.args p).w1.toNat ∨ (s.args p).w1.toNat = o.val) →
        exec (.revoke p) s = .next (s.answered p .badRange Words4.zero)) ∧
      (∀ a : Port, (s.args p).w1.toNat = a.val → a ≠ o →
        (p ≠ o → p ≠ s.supervisor →
          exec (.revoke p) s = .next (s.answered p .noRight Words4.zero)) ∧
        ((p = o ∨ p = s.supervisor) → (s.window w).state ≠ .opened →
          exec (.revoke p) s = .next (s.answered p .state Words4.zero)) ∧
        ((p = o ∨ p = s.supervisor) → (s.window w).state = .opened →
          ((∀ k r b, (s.window w).grant k ≠ .active a r b) →
            exec (.revoke p) s = .next (s.answered p .state Words4.zero)) ∧
          (∀ k r b, (s.window w).grant k = .active a r b →
            ∃ t, exec (.revoke p) s = .next t ∧ FinishedOk s t p Words4.zero ∧
              t.windows = (s.withGrant w k (.revoked a r b)).windows ∧
              t = { s with lastServed := p, windows := t.windows, ports := t.ports } ∧
              (∀ q, q ≠ p → t.port q = { s.port q with attention := (t.port q).attention }) ∧
              t.port p = { s.port p with
                attention := (t.port p).attention, slot := (t.port p).slot } ∧
              Adds s t (fun q x => (q = p ∧ x = .done) ∨ (q = a ∧ a ≠ p ∧ x = .views) ∨
                (q = o ∧ o ≠ p ∧ x = .grants))))))

/-- R98, R109: RELEASE. Refused by its table; passing, the caller's view is vacated; the owner of an OPEN
window receives GRANTS, and a RETIRING window left with no view returns to VACANT with its generation one
higher. -/
def Obligations.ReleaseGivesViewBack : Prop :=
  ∀ (p : Port) (s : State), s.Due p 0x15 →
    (validHandle s (s.args p).w0 = none →
      exec (.release p) s = .next (s.answered p .noWindow Words4.zero)) ∧
    (∀ (w : WSlot) (o : Port), validHandle s (s.args p).w0 = some w → (s.window w).owner = some o →
      (s.window w).OneSlotEach →
      ((∀ k, ((s.window w).grant k).isOf p = false) →
        exec (.release p) s = .next (s.answered p .noRight Words4.zero)) ∧
      (∀ k, ((s.window w).grant k).isOf p = true →
        (((s.window w).grant k).isView = false ∨ (k = 0 ∧ (s.window w).state = .opened) →
          exec (.release p) s = .next (s.answered p .state Words4.zero)) ∧
        (((s.window w).grant k).isView = true → ¬ (k = 0 ∧ (s.window w).state = .opened) →
          ((s.window w).state = .opened →
            exec (.release p) s = .next
              (State.answered ((s.withGrant w k .vacant).told o .grants) p .ok Words4.zero)) ∧
          ((s.window w).state = .draining ∨
              ((s.window w).state = .retiring ∧ ∃ j, j ≠ k ∧ ((s.window w).grant j).isView = true) →
            exec (.release p) s = .next (State.answered (s.withGrant w k .vacant) p .ok Words4.zero)) ∧
          ((s.window w).state = .retiring → (∀ j, j ≠ k → ((s.window w).grant j).isView = false) →
            exec (.release p) s = .next
              (State.answered
                { s with windows := Tab.upd s.windows w fun x => Window.vacantAt (x.gen + 1) }
                p .ok Words4.zero)))))

/-! ### The read commands -/

namespace Sys2Proof.Machine

/-- A party that may read a window (R113). -/
abbrev State.PartyOrSupervisor (s : State) (p : Port) (w : WSlot) : Prop :=
  (s.window w).owner = some p ∨ (∃ k, ((s.window w).grant k).isOf p = true) ∨ p = s.supervisor

/-- The number of a port, 0 where there is none (R177). -/
def portNumber : Option Port → Nat
  | some p => p.val
  | none => 0

end Sys2Proof.Machine

/-- R113, R114, R177: READ WINDOW. NO_WINDOW, then NO_RIGHT for a caller that may not read; else the record in
its result fields and 0 in every other bit, with the drain of CLEAR for a window under CLEAR, and nothing changed but
the slot. -/
def Obligations.ReadWindowShowsRecord : Prop :=
  ∀ (p : Port) (s : State), s.Due p 0x20 →
    (validHandle s (s.args p).w0 = none →
      exec (.readWindow p) s = .next (s.answered p .noWindow Words4.zero)) ∧
    (∀ w : WSlot, validHandle s (s.args p).w0 = some w →
      (¬ s.PartyOrSupervisor p w →
        exec (.readWindow p) s = .next (s.answered p .noRight Words4.zero)) ∧
      (s.PartyOrSupervisor p w → ∀ (d : DrainSet) (n : Nat),
        (∀ c, s.clearRec = some c → w ∈ c.closed → d = c.drain ∧ n = c.retiring.length) →
        (s.underClear w = false → d = (s.window w).drain ∧ n = (s.window w).retiring.length) →
        n < 2048 → (s.window w).extents.length ≤ 128 →
        ∃ r : Words4, exec (.readWindow p) s = .next (s.answered p .ok r) ∧
          field r.w0 0 8 = (if (s.window w).state = .opened then (s.window w).extents.length else 0) ∧
          field r.w0 8 3 = portNumber (s.window w).owner ∧ field r.w0 12 2 = windowNumber (s.window w).state ∧
          (∀ q : Port, field r.w1 q.val 1 = (d.ports.has q).toNat) ∧ field r.w1 6 1 = d.rle.toNat ∧
          r.w1.toNat < 128 ∧ r.w2 = BitVec.ofNat 32 n ∧
          (∀ k : GSlot, field r.w3 (5 * k.val) 2 = grantNumber ((s.window w).grant k) ∧
            field r.w3 (5 * k.val + 2) 3 = portNumber ((s.window w).grant k).agent) ∧
          ZeroOutside r.w0 [(0, 8), (8, 3), (12, 2)] ∧ ZeroOutside r.w1 [(0, 7)] ∧ ZeroOutside r.w2 [(0, 11)] ∧
          ZeroOutside r.w3 [(0, 30)]))

/-- R113, R115, R177: READ GRANT. NO_WINDOW, BAD_RANGE for a slot number past 5, NO_RIGHT; else state and agent,
rights, base and remaining lifetime, absent fields and all bits outside the fields 0. -/
def Obligations.ReadGrantShowsSlot : Prop :=
  ∀ (p : Port) (s : State), s.Due p 0x21 →
    (validHandle s (s.args p).w0 = none →
      exec (.readGrant p) s = .next (s.answered p .noWindow Words4.zero)) ∧
    (∀ w : WSlot, validHandle s (s.args p).w0 = some w →
      (6 ≤ (s.args p).w1.toNat → exec (.readGrant p) s = .next (s.answered p .badRange Words4.zero)) ∧
      (∀ k : GSlot, (s.args p).w1.toNat = k.val →
        (¬ s.PartyOrSupervisor p w →
          exec (.readGrant p) s = .next (s.answered p .noRight Words4.zero)) ∧
        (s.PartyOrSupervisor p w →
          ∃ x : Words4, exec (.readGrant p) s = .next (s.answered p .ok x) ∧
            x = (match (s.window w).grant k with
              | .vacant => ⟨0, 0, 0, 0⟩
              | .offered a r n => ⟨BitVec.ofNat 32 (1 + 16 * a.val),
                  (match r with | .read => 0 | .readWrite => 1), 0, BitVec.ofNat 32 (n.getD 0)⟩
              | .active a r b => ⟨BitVec.ofNat 32 (2 + 16 * a.val),
                  (match r with | .read => 0 | .readWrite => 1), BitVec.ofNat 32 b, 0⟩
              | .revoked a r b => ⟨BitVec.ofNat 32 (3 + 16 * a.val),
                  (match r with | .read => 0 | .readWrite => 1), BitVec.ofNat 32 b, 0⟩) ∧
            ZeroOutside x.w0 [(0, 2), (4, 3)] ∧ ZeroOutside x.w1 [(0, 1)])))

/-- R116, R177: READ VIEW. An index past 15 or not below the views held gives BAD_RANGE; else the view of that
index, as many of the caller's views standing below its base, with handle, slot, state, rights, base, length
and the number of views held, every other bit 0. The caller's bases are distinct (R14). -/
def Obligations.ReadViewByBase : Prop :=
  ∀ (p : Port) (s : State), s.Due p 0x22 →
    ((16 ≤ (s.args p).w0.toNat ∨ s.viewsHeld p ≤ (s.args p).w0.toNat) →
      exec (.readView p) s = .next (s.answered p .badRange Words4.zero)) ∧
    ((s.args p).w0.toNat < 16 → s.viewsHeld p ≤ 16 →
      ((s.viewsOf p).map View.base).Nodup →
      ∀ v ∈ s.viewsOf p, ((s.viewsOf p).filter fun u => decide (u.base < v.base)).length =
          (s.args p).w0.toNat → v.len ≤ 128 →
        ∃ r : Words4, exec (.readView p) s = .next (s.answered p .ok r) ∧
          r.w0 = BitVec.ofNat 32 ((s.window v.window).gen.toNat * 256 + v.window.val) ∧
          field r.w1 0 3 = v.slot.val ∧ field r.w1 4 2 = (if v.revoked then 3 else 2) ∧
          field r.w1 8 1 = rightsNumber v.rights ∧ r.w1.toNat < 512 ∧ r.w2 = BitVec.ofNat 32 v.base ∧
          field r.w3 0 8 = v.len ∧ field r.w3 16 5 = s.viewsHeld p ∧
          ZeroOutside r.w1 [(0, 3), (4, 2), (8, 1)] ∧ ZeroOutside r.w3 [(0, 8), (16, 5)])

/-- R117, R177: READ OFFER. An index past 127 or not below the number of offers to the caller gives BAD_RANGE;
else the offer of that index in ascending window slot, with handle, slot, rights, owner, size, lifetime and the
number of offers, every other bit 0. -/
def Obligations.ReadOfferBySlot : Prop :=
  ∀ (p : Port) (s : State), s.Due p 0x23 →
    ((128 ≤ (s.args p).w0.toNat ∨ (s.offersTo p).length ≤ (s.args p).w0.toNat) →
      exec (.readOffer p) s = .next (s.answered p .badRange Words4.zero)) ∧
    (∀ (w : WSlot) (k : GSlot) (r : Rights) (n : Option Nat), (s.args p).w0.toNat < 128 →
      (s.offersTo p)[(s.args p).w0.toNat]? = some (w, k) → (s.window w).grant k = .offered p r n →
      n.getD 0 ≤ 255 → (s.offersTo p).length ≤ 128 → (s.window w).extents.length ≤ 128 →
      (s.window w).state = .opened →
      ∃ x : Words4, exec (.readOffer p) s = .next (s.answered p .ok x) ∧
        x.w0 = BitVec.ofNat 32 ((s.window w).gen.toNat * 256 + w.val) ∧
        field x.w1 0 3 = k.val ∧ field x.w1 8 1 = rightsNumber r ∧ field x.w1 16 3 = portNumber (s.window w).owner ∧
        field x.w2 0 8 = (s.window w).extents.length ∧ field x.w2 16 8 = n.getD 0 ∧
        field x.w3 0 8 = (s.offersTo p).length ∧ ZeroOutside x.w1 [(0, 3), (8, 1), (16, 3)] ∧
        ZeroOutside x.w2 [(0, 8), (16, 8)] ∧ ZeroOutside x.w3 [(0, 8)]) ∧
    (∀ (w : WSlot) (k : GSlot), (w, k) ∈ s.offersTo p ↔ ∃ r n, (s.window w).grant k = .offered p r n) ∧
    (s.offersTo p).Pairwise (fun x y => x.1 < y.1 ∨ (x.1 = y.1 ∧ x.2 < y.2))

/-- R118, R177: READ ACCOUNT returns the caller's quotas, rank and usage and the number of FREE extents, every bit
outside these fields 0. -/
def Obligations.ReadAccountShowsUsage : Prop :=
  ∀ (p : Port) (s : State), s.Due p 0x24 →
    (s.account p).windowQuota ≤ 16 → (s.account p).extentQuota ≤ 1024 → s.ownedWindows p ≤ 16 →
    s.viewsHeld p ≤ 16 → s.ownedExtents p ≤ 1024 → s.freeList.length ≤ 1024 →
    ∃ r : Words4, exec (.readAccount p) s = .next (s.answered p .ok r) ∧
      field r.w0 0 5 = (s.account p).windowQuota ∧ field r.w0 16 11 = (s.account p).extentQuota ∧
      r.w1 = BitVec.ofNat 32 (s.account p).rank.val ∧
      field r.w2 0 5 = s.ownedWindows p ∧ field r.w2 8 5 = s.viewsHeld p ∧
      field r.w2 16 11 = s.ownedExtents p ∧ r.w3 = BitVec.ofNat 32 s.freeList.length ∧
      ZeroOutside r.w0 [(0, 5), (16, 11)] ∧ ZeroOutside r.w1 [(0, 2)] ∧
      ZeroOutside r.w2 [(0, 5), (8, 5), (16, 11)] ∧ ZeroOutside r.w3 [(0, 11)]

/-! ### The supervisor's commands -/

/-- R71, R72: each of the thirteen supervisor commands from another port is refused with NO_RIGHT, whatever its
arguments, and changes nothing else. -/
def Obligations.SupervisorCommandsNeedPrivilege : Prop :=
  ∀ (p : Port) (s : State), p ≠ s.supervisor →
    ∀ x ∈ [((0x40 : BitVec 8), Instr.setQuota p), (0x41, .setRank p), (0x42, .setThreshold p), (0x43, .hold p),
      (0x44, .resume p), (0x45, .resetPort p), (0x46, .forceClose p), (0x47, .migrate p),
      (0x48, .quarantine p), (0x49, .restore p), (0x4A, .readExtent p), (0x4B, .readPool p), (0x4F, .clear p)],
      s.Due p x.1 → exec x.2 s = .next (s.answered p .noRight Words4.zero)

/-- R73: a command refused with a status other than OK changes nothing in the part but its own slot, DONE in
the caller's attention set and the arbiter's turn, whichever command it is. -/
def Obligations.RefusedCommandChangesOnlySlot : Prop :=
  ∀ (p : Port) (s t : State) (st : Status),
    ∀ x ∈ [((0x01 : BitVec 8), Instr.openWindow p), (0x02, .grow p), (0x03, .shrink p), (0x04, .close p),
      (0x10, .offer p), (0x11, .withdraw p), (0x12, .accept p), (0x13, .decline p), (0x14, .revoke p),
      (0x15, .release p), (0x20, .readWindow p), (0x21, .readGrant p), (0x22, .readView p),
      (0x23, .readOffer p), (0x24, .readAccount p), (0x40, .setQuota p), (0x41, .setRank p),
      (0x42, .setThreshold p), (0x43, .hold p), (0x44, .resume p), (0x45, .resetPort p), (0x46, .forceClose p),
      (0x47, .migrate p), (0x48, .quarantine p), (0x49, .restore p), (0x4A, .readExtent p), (0x4B, .readPool p),
      (0x4F, .clear p)],
      s.Due p x.1 → exec x.2 s = .next t → (t.port p).slot.state = .done st → st ≠ .ok →
      t = s.answered p st Words4.zero

/-- R158, all of it: SET QUOTA and SET RANK. Out-of-range arguments give BAD_RANGE; passing, exactly the two
quotas, or the rank, of the named agent are replaced. -/
def Obligations.QuotaAndRankAreSet : Prop :=
  ∀ (s : State) (p : Port), p = s.supervisor →
    (s.Due p 0x40 →
      (¬ ((s.args p).w0.toNat < 6 ∧ (s.args p).w1.toNat ≤ 16 ∧ (s.args p).w2.toNat ≤ 1024) →
        exec (.setQuota p) s = .next (s.answered p .badRange Words4.zero)) ∧
      (∀ a : Port, (s.args p).w0.toNat = a.val → (s.args p).w1.toNat ≤ 16 → (s.args p).w2.toNat ≤ 1024 →
        exec (.setQuota p) s = .next
          (State.answered
            { s with accounts := Tab.upd s.accounts a fun x =>
              { x with windowQuota := (s.args p).w1.toNat, extentQuota := (s.args p).w2.toNat } }
            p .ok Words4.zero))) ∧
    (s.Due p 0x41 →
      (¬ ((s.args p).w0.toNat < 6 ∧ (s.args p).w1.toNat < 4) →
        exec (.setRank p) s = .next (s.answered p .badRange Words4.zero)) ∧
      (∀ (a : Port) (r : Fin 4), (s.args p).w0.toNat = a.val → (s.args p).w1.toNat = r.val →
        exec (.setRank p) s = .next
          (State.answered { s with accounts := Tab.upd s.accounts a fun x => { x with rank := r } }
            p .ok Words4.zero)))

namespace Sys2Proof.Machine

/-- The BOUND extents outside the Relocation List whose count, lowered to `n`, is `n`, ascending (R36). -/
def State.listedAt (s : State) (n : Nat) : List Extent :=
  (List.finRange 1024).filter fun e =>
    (s.entry e).st.isBound && decide (min (s.entry e).count n = n) && decide (e ∉ s.relocList)

end Sys2Proof.Machine

/-- R36, R159: SET THRESHOLD. Outside 1 to 15 BAD_RANGE; passing, the threshold is replaced, higher counts are
lowered to it, the BOUND extents that stand at it are listed in ascending number, and what R139 and R140 say
of the engine follows at the same take; RES0 holds the old threshold, RES1 how many were listed. -/
def Obligations.ThresholdIsSet : Prop :=
  ∀ (s : State) (p : Port) (n : Nat), p = s.supervisor → s.Due p 0x42 → n = (s.args p).w0.toNat →
    (¬ (1 ≤ n ∧ n ≤ 15) → exec (.setThreshold p) s = .next (s.answered p .badRange Words4.zero)) ∧
    (1 ≤ n → n ≤ 15 → exec (.setThreshold p) s = .next
      (State.answered
        (State.settle { s with
          threshold := n
          extents := Tab.mapAll s.extents fun _ x => { x with count := min x.count n }
          relocList := s.relocList ++ s.listedAt n })
        p .ok ⟨BitVec.ofNat 32 s.threshold, BitVec.ofNat 32 (s.listedAt n).length, 0, 0⟩))

/-- R160: HOLD. BAD_RANGE for no port or the Supervisor Port. A port already held changes nothing; else its
flag is set and it receives HOLD, and the command is finished at once where its access is IDLE, and otherwise
is in progress with a hold wait recorded. -/
def Obligations.HoldStopsPort : Prop :=
  ∀ (s : State) (p : Port), p = s.supervisor → s.Due p 0x43 →
    ((6 ≤ (s.args p).w0.toNat ∨ (s.args p).w0.toNat = p.val) →
      exec (.hold p) s = .next (s.answered p .badRange Words4.zero)) ∧
    (∀ q : Port, (s.args p).w0.toNat = q.val → q ≠ p →
      ((s.port q).hold = true → exec (.hold p) s = .next (s.answered p .ok Words4.zero)) ∧
      ((s.port q).hold = false → (s.port q).access = .idle →
        exec (.hold p) s = .next
          (State.answered
            { s with ports := Tab.upd s.ports q fun u =>
              { u with hold := true, attention := KindSet.add u.attention .hold } }
            p .ok Words4.zero)) ∧
      ((s.port q).hold = false → (s.port q).access ≠ .idle →
        exec (.hold p) s = .next
          { s with
            lastServed := p
            ports := Tab.upd
              (Tab.upd s.ports q fun u =>
                { u with hold := true, attention := KindSet.add u.attention .hold,
                         holdWait := .present true })
              p fun u => { u with slot := { u.slot with state := .inProgress } } }))

/-- R162, all of it: RESUME. BAD_RANGE for no port; a held port's flag is cleared, it receives HOLD and a hold
wait on it ends with nothing written; on a port that is not held nothing changes. -/
def Obligations.ResumeLiftsHold : Prop :=
  ∀ (s : State) (p : Port), p = s.supervisor → s.Due p 0x44 →
    (6 ≤ (s.args p).w0.toNat → exec (.resume p) s = .next (s.answered p .badRange Words4.zero)) ∧
    (∀ q : Port, (s.args p).w0.toNat = q.val →
      ((s.port q).hold = true →
        exec (.resume p) s = .next
          (State.answered
            { s with ports := Tab.upd s.ports q fun u =>
              { u with hold := false, holdWait := .absent,
                       attention := KindSet.add u.attention .hold } }
            p .ok Words4.zero)) ∧
      ((s.port q).hold = false → (s.port q).holdWait = .absent →
        exec (.resume p) s = .next (s.answered p .ok Words4.zero)))

/-- R155, R167, all of them: MIGRATE. BAD_RANGE past 1023, STATE unless BOUND, DUPLICATE if listed; passing, the
extent joins the Relocation List tail and what R139 and R140 say of the engine follows at the same take. -/
def Obligations.MigrateListsExtent : Prop :=
  ∀ (s : State) (p : Port), p = s.supervisor → s.Due p 0x47 →
    (1024 ≤ (s.args p).w0.toNat → exec (.migrate p) s = .next (s.answered p .badRange Words4.zero)) ∧
    (∀ e : Extent, (s.args p).w0.toNat = e.val →
      ((∀ h i, (s.entry e).st ≠ .bound h i) →
        exec (.migrate p) s = .next (s.answered p .state Words4.zero)) ∧
      (∀ h i, (s.entry e).st = .bound h i →
        (e ∈ s.relocList → exec (.migrate p) s = .next (s.answered p .duplicate Words4.zero)) ∧
        (e ∉ s.relocList →
          exec (.migrate p) s = .next
            (State.answered (State.settle { s with relocList := s.relocList ++ [e] }) p .ok Words4.zero))))

/-- R30, R168: QUARANTINE of a FREE or DIRTY extent takes it from its list, the others keeping their order, and
adds QUARANTINED; RESTORE of a QUARANTINED one makes it DIRTY at the Wipe List tail, count and mark kept, and
the Wipe Engine takes it if it can. BAD_RANGE past 1023 and STATE in every other state. -/
def Obligations.QuarantineAndRestore : Prop :=
  ∀ (s : State) (p : Port), p = s.supervisor →
    (s.Due p 0x48 →
      (1024 ≤ (s.args p).w0.toNat → exec (.quarantine p) s = .next (s.answered p .badRange Words4.zero)) ∧
      (∀ e : Extent, (s.args p).w0.toNat = e.val →
        ((s.entry e).st ≠ .free → (s.entry e).st ≠ .dirty →
          exec (.quarantine p) s = .next (s.answered p .state Words4.zero)) ∧
        ((s.entry e).st = .free ∨ (s.entry e).st = .dirty →
          exec (.quarantine p) s = .next
            (State.answered
              (State.told { s with
                extents := Tab.upd s.extents e fun x => { x with st := .quarantined .supervisor }
                freeList := s.freeList.filter fun x => decide (x ≠ e)
                wipeList := s.wipeList.filter fun x => decide (x ≠ e) } p .quarantined)
              p .ok Words4.zero)))) ∧
    (s.Due p 0x49 →
      (1024 ≤ (s.args p).w0.toNat → exec (.restore p) s = .next (s.answered p .badRange Words4.zero)) ∧
      (∀ e : Extent, (s.args p).w0.toNat = e.val →
        ((∀ c, (s.entry e).st ≠ .quarantined c) →
          exec (.restore p) s = .next (s.answered p .state Words4.zero)) ∧
        (∀ c, (s.entry e).st = .quarantined c →
          exec (.restore p) s = .next
            (State.answered
              (State.settle { s with
                extents := Tab.upd s.extents e fun x => { x with st := .dirty }
                wipeList := s.wipeList ++ [e] })
              p .ok Words4.zero))))

/-- R169, R177: READ EXTENT returns the Extent Map entry and the threshold, absent fields and all bits outside the
fields 0, and changes nothing but the slot. -/
def Obligations.ReadExtentShowsEntry : Prop :=
  ∀ (s : State) (p : Port), p = s.supervisor → s.Due p 0x4A →
    (1024 ≤ (s.args p).w0.toNat → exec (.readExtent p) s = .next (s.answered p .badRange Words4.zero)) ∧
    (∀ e : Extent, (s.args p).w0.toNat = e.val → (s.entry e).count ≤ 15 → s.threshold ≤ 15 →
      ∃ r : Words4, exec (.readExtent p) s = .next (s.answered p .ok r) ∧
        field r.w0 0 3 = extentNumber (s.entry e).st ∧ field r.w0 8 4 = (s.entry e).count ∧
        field r.w0 12 1 = (if e ∈ s.relocList then 1 else 0) ∧
        field r.w0 13 1 = (s.entry e).poisoned.toNat ∧ field r.w0 16 2 = causeNumber (s.entry e).st ∧
        (∀ h i, (s.entry e).st.place = some (h, i) → i < 128 →
          field r.w1 0 16 = h.gen.toNat * 256 + h.slot.val ∧ field r.w1 16 7 = i) ∧
        ((s.entry e).st.place = none → r.w1 = 0) ∧
        r.w2 = BitVec.ofNat 32 s.threshold ∧ r.w3 = 0 ∧
        ZeroOutside r.w0 [(0, 3), (8, 4), (12, 1), (13, 1), (16, 2)] ∧ ZeroOutside r.w1 [(0, 16), (16, 7)] ∧
        ZeroOutside r.w2 [(0, 4)])

/-- R170, R177: READ POOL returns the figures of the Extent Manager and its two engines, every bit outside these
fields 0, and changes nothing but the slot. -/
def Obligations.ReadPoolShowsFigures : Prop :=
  ∀ (s : State) (p : Port), p = s.supervisor → s.Due p 0x4B →
    s.freeList.length ≤ 1024 → s.wipeList.length ≤ 1024 → s.relocList.length ≤ 1024 →
    (∀ src tgt n, s.rle.relocation = some (src, tgt, n) → n ≤ 1024) →
    (∀ e b, s.wpe = .writing e b → b < 1024) → (∀ e b f, s.wpe = .verifying e b f → b < 1024) →
    ∃ r : Words4, exec (.readPool p) s = .next (s.answered p .ok r) ∧
      field r.w0 0 11 = s.freeList.length ∧ field r.w0 16 11 = s.wipeList.length ∧
      field r.w1 0 11 = ((List.finRange 1024).filter fun e => (s.entry e).st.isQuarantined).length ∧
      field r.w1 16 11 = s.relocList.length ∧
      field r.w2 0 3 = rleNumber s.rle ∧ field r.w2 24 2 = wpeNumber s.wpe ∧
      (s.rle.relocation = none → field r.w2 4 10 = 0 ∧ field r.w2 14 10 = 0 ∧ field r.w3 0 11 = 0) ∧
      (∀ src tgt n, s.rle.relocation = some (src, tgt, n) →
        field r.w2 4 10 = src.val ∧ field r.w2 14 10 = tgt.val ∧ field r.w3 0 11 = n) ∧
      (s.wpe = .idle → field r.w3 11 10 = 0 ∧ field r.w3 21 10 = 0) ∧
      (∀ e b, s.wpe = .writing e b → field r.w3 11 10 = e.val ∧ field r.w3 21 10 = b) ∧
      (∀ e b f, s.wpe = .verifying e b f → field r.w3 11 10 = e.val ∧ field r.w3 21 10 = b) ∧
      ZeroOutside r.w0 [(0, 11), (16, 11)] ∧ ZeroOutside r.w1 [(0, 11), (16, 11)] ∧
      ZeroOutside r.w2 [(0, 3), (4, 10), (14, 10), (24, 2)] ∧ ZeroOutside r.w3 [(0, 11), (11, 10), (21, 10)]

/-! ### CLEAR -/

namespace Sys2Proof.Machine

/-- Port `q` joins the drain set of CLEAR: its access is in flight, or it is a member of a pending drain, of a
window or of an earlier CLEAR (R171, R172). -/
abbrev State.JoinsClear (s : State) (q : Port) : Prop :=
  (s.port q).access ≠ .idle ∨ (∃ w, (s.window w).drain.ports.has q = true) ∨
    ∃ c, s.clearRec = some c ∧ c.drain.ports.has q = true

/-- The drain of CLEAR has a member (R171). -/
abbrev State.ClearWaits (s : State) : Prop := (∃ q, s.JoinsClear q) ∨ s.rle.hasBlock = true

/-- What CLEAR leaves RETIRING (R39): what is RETIRING and what is BOUND, MOVING or TARGET, ascending. -/
def State.clearedExtents (s : State) : List Extent :=
  (List.finRange 1024).filter fun e =>
    match (s.entry e).st with
    | .bound _ _ | .moving _ _ | .target | .retiring => true
    | .free | .dirty | .wiping | .quarantined _ => false

/-- The engine after CLEAR with members in its drain set (R152). -/
def Rle.underClear : Rle → Rle
  | .copying src tgt ptr => .abandoning src tgt ptr true .clear
  | .cutover src tgt ptr a b c (.taken x y) => .cutover src tgt ptr a b c (.taken x y)
  | .cutover src tgt ptr _ _ _ .notRequested => .abandoning src tgt ptr false .clear
  | .cutover src tgt ptr _ _ _ .requested => .abandoning src tgt ptr false .clear
  | .abandoning src tgt ptr b _ => .abandoning src tgt ptr b .clear
  | .idle | .waiting => .idle

/-- The engine after a CLEAR whose drain set is empty (R152, R173): at rest, but for a swap already taken. -/
def Rle.afterClear : Rle → Rle
  | .cutover src tgt ptr a b c (.taken x y) => .cutover src tgt ptr a b c (.taken x y)
  | .cutover _ _ _ _ _ _ .notRequested | .cutover _ _ _ _ _ _ .requested => .idle
  | .idle | .waiting | .copying _ _ _ | .abandoning _ _ _ _ _ => .idle

/-- The Wipe List is `l`, but that an IDLE Wipe Engine of a READY bank has taken the head of `l` (R41). -/
def WipeListIs (s t : State) (l : List Extent) : Prop :=
  match s.wpe, s.bankReady, l with
  | .idle, true, e :: rest => t.wipeList = rest ∧ t.wpe = .writing e 0 ∧ (t.entry e).st = .wiping
  | _, _, _ => t.wipeList = l ∧ t.wpe = s.wpe

end Sys2Proof.Machine

/-- R39, R70, R152, R171 to R173: CLEAR aborts every other slot, a command that waits in it dropped (also an ACCEPT or
a DECLINE: the model's reading of R70 and R172 against R110, log 41), and empties its attention set and fault record,
empties the Relocation List and abandons the relocation. With a member in its drain set every window that is not
VACANT is DRAINING under the recorded drain with no grant slot in use and the command is in progress; with none
every such slot is VACANT one generation on, the extents are DIRTY and RES0 counts them. Quotas, ranks, masks,
hold flags, threshold and the bank's words stay. -/
def Obligations.ClearEndsEveryWindow : Prop :=
  ∀ (s : State) (p : Port), p = s.supervisor → s.Due p 0x4F → ∃ t, exec (.clear p) s = .next t ∧
    t.kept = (s.served p).kept ∧ t.relocList = [] ∧ t.freeList = s.freeList ∧
    (∀ q, q ≠ p → t.port q = { s.port q with slot := Slot.cleared, attention := 0, fault := none }) ∧
    t.port p = { s.port p with attention := (t.port p).attention, slot := (t.port p).slot } ∧
    (∀ e, (t.entry e).count = (s.entry e).count ∧ (t.entry e).poisoned = (s.entry e).poisoned) ∧
    (∀ e, e ∉ s.clearedExtents → e ∉ s.wipeList → t.entry e = s.entry e) ∧
    (∀ w, (s.window w).state = .vacant → t.window w = s.window w) ∧
    t.abandonHanded = (if s.rle.live = none then s.abandonHanded else PortSet.all) ∧
    (s.ClearWaits →
      (t.port p).slot = { (s.port p).slot with state := .inProgress } ∧
      (∀ k, KindSet.has (t.port p).attention k = true ↔
        KindSet.has (s.port p).attention k = true ∨ (k = .moved ∧ s.rle.live ≠ none)) ∧
      (∀ w, (s.window w).state ≠ .vacant → t.window w =
        { state := .draining, gen := (s.window w).gen, owner := (s.window w).owner, extents := [],
          closedLen := 0, grants := Vector.replicate 6 .vacant, drain := DrainSet.empty, retiring := [] }) ∧
      (∃ c, t.clearRec = some c ∧ c.slotLive = true ∧ c.retiring = s.clearedExtents ∧
        c.closed = ((List.finRange 128).filter fun w => decide ((s.window w).state ≠ .vacant)) ∧
        c.drain.rle = s.rle.hasBlock ∧ ∀ q, c.drain.ports.has q = true ↔ s.JoinsClear q) ∧
      (∀ e ∈ s.clearedExtents, e ∉ s.wipeList → (t.entry e).st = .retiring) ∧
      WipeListIs s t s.wipeList ∧ t.rle = s.rle.underClear) ∧
    (¬ s.ClearWaits →
      FinishedOk s t p ⟨BitVec.ofNat 32 s.clearedExtents.length, 0, 0, 0⟩ ∧
      (∀ k, KindSet.has (t.port p).attention k = true ↔
        KindSet.has (s.port p).attention k = true ∨ k = .done ∨ (k = .moved ∧ s.rle.live ≠ none)) ∧
      (∀ w, (s.window w).state ≠ .vacant → t.window w = Window.vacantAt ((s.window w).gen + 1)) ∧
      t.clearRec = none ∧
      (∀ e ∈ s.clearedExtents, (t.entry e).st = .dirty ∨ (t.entry e).st = .wiping) ∧
      WipeListIs s t (s.wipeList ++ s.clearedExtents) ∧ t.rle = s.rle.afterClear)

/-! ### The completion of an access -/

namespace Sys2Proof.Machine

/-- What a word of the bank holds. -/
def State.word (s : State) (a : Nat) : StoredWord := Memory.stored s.epoch s.mem a

/-- A stored word with the bits the bank changed since. -/
def disturbed (x : StoredWord) (bits : Bits39) : StoredWord :=
  { x with errors := x.errors ^^^ bits }

/-- What the access of port `p` finds in its word. -/
def State.found (s : State) (a : AccessRec) (changed : Bits39) : StoredWord :=
  disturbed (s.word (s.bankAddr a.ext a.byteAddr)) changed

/-- The words of the bank are as they were but at the addresses `at`. -/
def WordsKept (s t : State) (stored : Nat → Prop) : Prop :=
  t.epoch = s.epoch ∧ ∀ x, ¬ stored x → t.word x = s.word x

/-- A DERR is answered (R56, R57). -/
def derrKind : Option WordRead → Option FaultKind
  | some .uncorrectable => some .data
  | some .poisoned => some .poison
  | some (.clean _) | some (.corrected _) | none => none

/-- The correctable count rises (R34). -/
abbrev State.Counts (s : State) (e : Extent) (o : Option WordRead) : Prop :=
  (∃ d, o = some (.corrected d)) ∧ (s.entry e).st.isBound = true ∧ (s.entry e).count < s.threshold

/-- The extent joins the Relocation List (R34, R35). -/
abbrev State.Lists (s : State) (e : Extent) (o : Option WordRead) : Prop :=
  e ∉ s.relocList ∧ ((s.Counts e o ∧ (s.entry e).count + 1 = s.threshold) ∨
    (o = some .uncorrectable ∧ (s.entry e).st.isBound = true))

/-- The extents of a retiring list have reached the Wipe List, or its first one the Wipe Engine (R38, R41). -/
def Wiped (t : State) (l : List Extent) : Prop := ∀ e ∈ l, e ∈ t.wipeList ∨ t.wpe = .writing e 0

/-- Windows and CLEAR's record when member `m` has left the drain that holds the window in slot `w`: its own
(R93, R94), or under CLEAR that of CLEAR (R171, R173). -/
def MemberLeft (s t : State) (w : WSlot) (m : Member) : Prop :=
  (s.underClear w = false → t.clearRec = s.clearRec ∧ (∀ v, v ≠ w → t.window v = s.window v) ∧
    ((s.window w).drain.has m = false → t.window w = s.window w) ∧
    ((s.window w).drain.has m = true →
      ((s.window w).drain.remove m ≠ DrainSet.empty →
        t.window w = { s.window w with drain := (s.window w).drain.remove m }) ∧
      ((s.window w).drain.remove m = DrainSet.empty →
        t.window w = (s.window w).ended ∧ Wiped t (s.window w).retiring))) ∧
  (∀ c, s.clearRec = some c → w ∈ c.closed →
    (c.drain.has m = false → t.clearRec = some c ∧ t.windows = s.windows) ∧
    (c.drain.has m = true →
      (c.drain.remove m ≠ DrainSet.empty →
        t.clearRec = some { c with drain := c.drain.remove m } ∧ t.windows = s.windows) ∧
      (c.drain.remove m = DrainSet.empty → t.clearRec = none ∧ Wiped t c.retiring ∧
        ∀ v, t.window v = if v ∈ c.closed then Window.vacantAt ((s.window v).gen + 1) else s.window v)))

/-- The drain of the window in slot `w` ends with the leaving of member `m`. -/
abbrev State.DrainEnds (s : State) (w : WSlot) (m : Member) : Prop :=
  s.underClear w = false ∧ (s.window w).drain.has m = true ∧ (s.window w).drain.remove m = DrainSet.empty

/-- The drain of CLEAR, holding the window in slot `w`, ends with the leaving of member `m`, and finishes the
command that waits for it, with `n` extents freed. -/
abbrev State.ClearFinishes (s : State) (w : WSlot) (m : Member) (n : Nat) : Prop :=
  ∃ c, s.clearRec = some c ∧ w ∈ c.closed ∧ c.slotLive = true ∧ c.drain.has m = true ∧
    c.drain.remove m = DrainSet.empty ∧ n = c.retiring.length

/-- The Extent Manager after the report of an outcome (R34, R35, R135): the count one higher, and the extent last in
the Relocation List where it reaches the threshold or is UNCORRECTABLE, the entries before it kept. -/
def State.reported (s : State) (e : Extent) (o : Option WordRead) : State :=
  let counted : State := { s with extents := Tab.upd s.extents e fun x => { x with count := x.count + 1 } }
  let listed (u : State) : State := { u with relocList := u.relocList ++ [e] }
  match o with
  | some (.corrected _) =>
    if (s.entry e).st.isBound = true ∧ (s.entry e).count < s.threshold then
      if (s.entry e).count + 1 = s.threshold ∧ e ∉ s.relocList then listed counted else counted
    else s
  | some .uncorrectable => if (s.entry e).st.isBound = true ∧ e ∉ s.relocList then listed s else s
  | some (.clean _) | some .poisoned | none => s

/-- The data of a DONE: the requested lanes of a word read, none for a write (R56, R174; log 12). -/
def AccessRec.doneWith (a : AccessRec) (o : Option WordRead) : Option Word :=
  match a.op, o with
  | .read, some (.clean d) => some (d &&& laneMask a.size a.addr)
  | .read, some (.corrected d) => some (d &&& laneMask a.size a.addr)
  | .read, some .uncorrectable | .read, some .poisoned | .read, none | .write _, _ => none

/-- A port that is given the result of its access (R56 to R58, R62). -/
def PortUnit.given (u : PortUnit) (a : AccessRec) (o : Option WordRead) : PortUnit :=
  match derrKind o, u.fault with
  | none, _ => { u with response := some ⟨.done, a.doneWith o⟩ }
  | some k, none =>
    { u with
      response := some ⟨.derr, some 0⟩
      fault := some ⟨k, a.addr, decide (a.op ≠ BusOp.read), some a.handle, false⟩
      attention := KindSet.add u.attention .fault }
  | some _, some f => { u with response := some ⟨.derr, some 0⟩, fault := some { f with later := true } }

/-- The engine after the completion of port `p`'s access on an extent (R144): an awaited port whose access was on the
source is awaited no more, its answer on its way void (log 19). -/
def Rle.awaitedLess (r : Rle) (p : Port) (e : Extent) : Rle :=
  match r with
  | .cutover src tgt ptr aw cl bu .notRequested =>
    if e = src ∧ aw.has p = true then
      .cutover src tgt ptr (aw.erase p) (cl.erase p) (bu.erase p)
        (if aw.erase p = PortSet.none then .requested else .notRequested)
    else r
  | .cutover _ _ _ _ _ _ .requested | .cutover _ _ _ _ _ _ (.taken _ _) => r
  | .idle | .waiting | .copying _ _ _ | .abandoning _ _ _ _ _ => r

/-- The part after the end of port `p`'s access `a` with the outcome `o` and the bank `m`, before what follows at once
(log 2): the report, the port's response, the engine's take, and the port's leaving of the drain and of the hold
wait that waited for the access. A drain whose last member it was is over: its extents DIRTY at the Wipe List
tail in the order of the retiring list, the engine that was ABANDONING under it at rest (R22, R34, R35, R38, R58,
R93, R94, R144, R151, R161, R173). -/
def State.accessDone (s : State) (m : Memory) (p : Port) (a : AccessRec) (o : Option WordRead) (live : Bool) :
    State :=
  let u := { s.reported a.ext o with
    mem := m
    unit := none
    rle := s.rle.awaitedLess p a.ext
    ports := Tab.upd s.ports p fun x => { (if live then x.given a o else x) with access := .idle } }
  (u.portLeft a.handle.slot p).holdWaitEnded p

/-- What the end of port `p`'s access `a` with the outcome `o` does beside the words of the bank (R22, R29, R34,
R35, R38, R58, R60 to R62, R93, R94, R144, R151, R161, R173): all of it in the first clause, what follows at once
being that of O50, and then record by record. `live`: the access was ISSUED, not ORPHANED. -/
def AccessEnded (s t : State) (p : Port) (a : AccessRec) (o : Option WordRead) (live : Bool) : Prop :=
  t = State.settle (s.accessDone t.mem p a o live) ∧
  t.port p = { s.port p with
    access := .idle, holdWait := .absent, response := (t.port p).response, fault := (t.port p).fault,
    attention := (t.port p).attention, slot := (t.port p).slot } ∧
  (∀ q, q ≠ p → t.port q =
    { s.port q with attention := (t.port q).attention, slot := (t.port q).slot }) ∧
  (derrKind o = none ∨ live = false → (t.port p).fault = (s.port p).fault) ∧
  (∀ k, derrKind o = some k → live = true → (t.port p).response = some ⟨.derr, some 0⟩ ∧
    ((s.port p).fault = none → (t.port p).fault =
      some ⟨k, a.addr, decide (a.op ≠ BusOp.read), some a.handle, false⟩) ∧
    (∀ f, (s.port p).fault = some f → (t.port p).fault = some { f with later := true })) ∧
  (live = false → (t.port p).response = (s.port p).response) ∧
  (∀ q, q ≠ s.supervisor → (t.port q).slot = (s.port q).slot) ∧
  ((s.port p).holdWait = .present true → (t.port s.supervisor).slot =
    { (s.port s.supervisor).slot with state := .done .ok, res := Words4.zero }) ∧
  ((s.port p).holdWait ≠ .present true →
    (∀ n, s.ClearFinishes a.handle.slot (.port p) n → (t.port s.supervisor).slot =
      { (s.port s.supervisor).slot with state := .done .ok, res := ⟨BitVec.ofNat 32 n, 0, 0, 0⟩ }) ∧
    ((∀ n, ¬ s.ClearFinishes a.handle.slot (.port p) n) →
      (t.port s.supervisor).slot = (s.port s.supervisor).slot)) ∧
  Adds s t (fun q k =>
    (q = p ∧ k = .fault ∧ live = true ∧ derrKind o ≠ none ∧ (s.port p).fault = none) ∨
    (k = .drained ∧ (s.window a.handle.slot).owner = some q ∧ s.DrainEnds a.handle.slot (.port p)) ∨
    (q = s.supervisor ∧ k = .done ∧ ((s.port p).holdWait = .present true ∨
      ∃ n, s.ClearFinishes a.handle.slot (.port p) n))) ∧
  MemberLeft s t a.handle.slot (.port p) ∧
  (∀ e, (t.entry e).poisoned = (s.entry e).poisoned ∧
    (t.entry e).count = if e = a.ext ∧ s.Counts e o then (s.entry e).count + 1 else (s.entry e).count) ∧
  (s.Lists a.ext o → a.ext ∈ t.relocList ∨ ∃ tgt, t.rle = .copying a.ext tgt 0) ∧
  (∀ e ∈ t.relocList, e ∈ s.relocList ∨ (e = a.ext ∧ s.Lists a.ext o)) ∧
  (∀ src tgt ptr, s.rle = .copying src tgt ptr → t.rle = s.rle) ∧
  (∀ src tgt ptr aw cl bu x, s.rle = .cutover src tgt ptr aw cl bu x →
    t.rle = if x = .notRequested ∧ a.ext = src ∧ aw.has p = true then
        .cutover src tgt ptr (aw.erase p) (cl.erase p) (bu.erase p)
          (if aw.erase p = PortSet.none then .requested else .notRequested)
      else s.rle) ∧
  t.accounts = s.accounts ∧ t.straps = s.straps ∧ t.threshold = s.threshold ∧
  t.lastServed = s.lastServed ∧ t.refreshPending = s.refreshPending ∧ (s.refreshPending = true → t.unit = none)

/-- The table of R128: the row in which 39 stored bits stand. The distances of R127 keep the rows apart. -/
def ReadsAs (x : Bits39) : WordRead → Prop
  | .clean d => x = validWord d
  | .corrected d => distance x (validWord d) = 1
  | .poisoned => distance x poisonMark ≤ 1
  | .uncorrectable => (∀ d, 2 ≤ distance x (validWord d)) ∧ 2 ≤ distance x poisonMark

/-- Port `p`'s access is the unit in progress. -/
def State.AccessInUnit (s : State) (p : Port) (a : AccessRec) (mirror : Option Extent) (live : Bool) : Prop :=
  s.resetn = false ∧ s.unit = some (.agent p mirror) ∧ s.MemCanonical ∧
    (s.port p).access = if live then .issued a else .orphaned a

end Sys2Proof.Machine

/-- R22, R29, R34, R35, R38, R56, R58, R60, R93, R94, R128, R144, R151, R161, R173: the completion of a read. CLEAN
and CORRECTED answer DONE with the requested lanes; UNCORRECTABLE and POISONED answer DERR with the fault DATA or POISON; an orphaned
read answers nothing. No word of the bank changes but by the bank itself. A refresh that is pending is performed
and no grant is made (R121, R126). R127, R128: valid words are at least four bits apart, and the poison mark at
least three bits from each; the outcome of a word with two errors or fewer is the row of R128's table in which its
39 bits stand. The report lists an extent at the Relocation List tail; a drain that the port was the last member of
ends, its extents DIRTY at the Wipe List tail in order and an engine ABANDONING under it at rest; nothing else
changes but what follows at once (log 2; its order log 37). Model's choices: the changed bits as an operand (log 7), a port's answer on its way made void by its
completion (log 19), the refresh over at a later MEMORY_GRANT (log 33), a poison mark with two errors that is one
bit from a valid word read as CORRECTED (log 8). -/
def Obligations.ReadCompletionAnswers : Prop :=
  (∀ d e, d ≠ e → 4 ≤ distance (validWord d) (validWord e)) ∧ (∀ d, 3 ≤ distance (validWord d) poisonMark) ∧
  (∀ w : StoredWord, bitCount w.errors ≤ 2 → ReadsAs (dqBits w) (outcomeOf w)) ∧
  ∀ (s : State) (p : Port) (a : AccessRec) (m : Option Extent) (ch : Bits39) (live : Bool) (o : WordRead),
    s.AccessInUnit p a m live → a.op = .read → o = outcomeOf (s.found a ch) →
    ∃ t, exec (.accessCompletion p ch) s = .next t ∧ AccessEnded s t p a (some o) live ∧
      (∀ d, live = true → o = .clean d ∨ o = .corrected d →
        (t.port p).response = some ⟨.done, some (d &&& laneMask a.size a.addr)⟩) ∧
      t.word (s.bankAddr a.ext a.byteAddr) = s.found a ch ∧
      WordsKept s t (fun x => x = s.bankAddr a.ext a.byteAddr)

namespace Sys2Proof.Machine

/-- The bank words a write stores to: its word in the extent and, where it is mirrored, in the target (R57,
R132). -/
def State.StoresTo (s : State) (a : AccessRec) (mirror : Option Extent) (x : Nat) : Prop :=
  x = s.bankAddr a.ext a.byteAddr ∨ ∃ e, mirror = some e ∧ x = s.bankAddr e a.byteAddr

end Sys2Proof.Machine

/-- R22, R29, R34, R35, R38, R57, R58, R60, R93, R94, R129 to R132, R144, R151, R161, R173: the completion of a
write. A full word is stored with fresh check bits without a reading; a byte or halfword is merged into the word read, and where that is
UNCORRECTABLE or POISONED nothing is stored and DERR is answered. A mirrored write stores the same word in the
target. Report, drain, hold wait and engine as at the completion of a read, and nothing else but what follows at once
(log 2; its order log 37). Model's choices: the changed bits as an operand (log 7), a port's answer on its way made void by its
completion (log 19), a pending refresh over at a later MEMORY_GRANT (log 33), no data with the DONE of a write (log
12). -/
def Obligations.WriteCompletionStores : Prop :=
  ∀ (s : State) (p : Port) (a : AccessRec) (m : Option Extent) (ch : Bits39) (live : Bool) (v : Word),
    s.AccessInUnit p a m live → a.op = .write v →
    (a.size = .word → ∃ t, exec (.accessCompletion p ch) s = .next t ∧ AccessEnded s t p a none live ∧
      (live = true → (t.port p).response = some ⟨.done, none⟩) ∧
      (∀ x, s.StoresTo a m x → t.word x = ⟨some v, 0⟩) ∧ WordsKept s t (s.StoresTo a m)) ∧
    (a.size ≠ .word → ∀ o, o = outcomeOf (s.found a ch) →
      ∃ t, exec (.accessCompletion p ch) s = .next t ∧ AccessEnded s t p a (some o) live ∧
        (∀ d, o = .clean d ∨ o = .corrected d →
          (live = true → (t.port p).response = some ⟨.done, none⟩) ∧
          (∀ x, s.StoresTo a m x → t.word x =
            ⟨some ((d &&& ~~~ laneMask a.size a.addr) ||| (v &&& laneMask a.size a.addr)), 0⟩) ∧
          WordsKept s t (s.StoresTo a m)) ∧
        (o = .uncorrectable ∨ o = .poisoned →
          t.word (s.bankAddr a.ext a.byteAddr) = s.found a ch ∧
          WordsKept s t (fun x => x = s.bankAddr a.ext a.byteAddr)))

/-! ### The ends of drains and of hold waits, ticks -/

/-- R94, R161, R173: DRAIN_END, CLEAR_DRAIN_END and HOLD_FINISH in a state where their end has come: the
retiring extents are DIRTY in order, the window record or records change, the engine rests, the owner has
DRAINED, or the command in progress is finished with OK. That these rows act by themselves in such a state, which no
step leaves behind, and that what follows is in the same step, is the model's deduction (log 2; the order of what
follows log 37). -/
def Obligations.DrainsAndHoldWaitsEnd : Prop :=
  ∀ s : State, s.resetn = false →
    (∀ (w : WSlot) (o : Port), (s.window w).drain = DrainSet.empty → s.underClear w = false →
      (s.window w).state = .draining ∨ (s.window w).retiring ≠ [] → (s.window w).owner = some o →
      exec (.drainEnd w) s = .next
        (State.settle (State.told
          { s.dirtied (s.window w).retiring with
            windows := Tab.upd s.windows w Window.ended, rle := s.rle.restedFrom (.window w) }
          o .drained))) ∧
    (∀ c : ClearRecord, s.clearRec = some c → c.drain = DrainSet.empty →
      ∃ u, u = { s.dirtied c.retiring with
          windows := Tab.mapAll s.windows fun w x =>
            if w ∈ c.closed then Window.vacantAt (x.gen + 1) else x
          rle := s.rle.restedFrom .clear
          clearRec := none } ∧
        exec .clearDrainEnd s = .next (State.settle
          (if c.slotLive then
            { u with ports := Tab.upd u.ports s.supervisor fun x =>
              { x with
                slot := { x.slot with
                  state := .done .ok, res := ⟨BitVec.ofNat 32 c.retiring.length, 0, 0, 0⟩ }
                attention := KindSet.add x.attention .done } }
          else u))) ∧
    (∀ (q : Port) (live : Bool), (s.port q).holdWait = .present live → (s.port q).access = .idle →
      ∃ u, u = { s with ports := Tab.upd s.ports q fun x => { x with holdWait := .absent } } ∧
        exec (.holdFinish q) s = .next
          (if live then
            { u with ports := Tab.upd u.ports s.supervisor fun x =>
              { x with
                slot := { x.slot with state := .done .ok, res := Words4.zero }
                attention := KindSet.add x.attention .done } }
          else u))

namespace Sys2Proof.Machine

/-- A grant slot of an OPEN window after a tick (R104, R105). -/
def Grant.ticked : Grant → Grant
  | .offered a r (some n) => if n ≤ 1 then .vacant else .offered a r (some (n - 1))
  | .offered a r none => .offered a r none
  | .vacant => .vacant
  | .active a r b => .active a r b
  | .revoked a r b => .revoked a r b

/-- At the next tick an offer to `a` in the window in slot `w` expires (R104). -/
abbrev State.LastTick (s : State) (w : WSlot) (a : Port) : Prop :=
  (s.window w).state = .opened ∧ ∃ k r n, (s.window w).grant k = .offered a r (some n) ∧ n ≤ 1

end Sys2Proof.Machine

/-- R104, R105: a tick lowers every lifetime by one; an offer that reaches 0 is vacated, its agent receives
OFFERS and the owner GRANTS. An offer made with lifetime 0 has none (log 26) and stays. OFFER_EXPIRY does the same
to one offer that stands at 0 ticks, which no take leaves behind (log 2). -/
def Obligations.TicksAgeOffers : Prop :=
  ∀ s : State, s.resetn = false →
    (∃ t, exec .tick s = .next t ∧ t = { s with windows := t.windows, ports := t.ports } ∧
      (∀ w, t.window w = { s.window w with grants := (t.window w).grants }) ∧
      (∀ w k, (t.window w).grant k =
        if (s.window w).state = .opened then ((s.window w).grant k).ticked else (s.window w).grant k) ∧
      (∀ q, t.port q = { s.port q with attention := (t.port q).attention }) ∧
      Adds s t (fun q k => (k = .offers ∧ ∃ w, s.LastTick w q) ∨
        (k = .grants ∧ ∃ w, (s.window w).owner = some q ∧ ∃ a, s.LastTick w a))) ∧
    (∀ (w : WSlot) (k : GSlot) (a o : Port) (r : Rights),
      (s.window w).grant k = .offered a r (some 0) → (s.window w).owner = some o →
      exec (.offerExpiry w k) s = .next (((s.withGrant w k .vacant).told a .offers).told o .grants))

/-! ### The memory port and the Wipe Engine -/

namespace Sys2Proof.Machine

/-- The Wipe Engine's take of the Wipe List head (R41): by an IDLE engine of a READY bank. -/
def State.wipeTaken (s : State) : State :=
  match s.wpe, s.bankReady, s.wipeList with
  | .idle, true, e :: rest =>
    { s with
      extents := Tab.upd s.extents e fun x => { x with st := .wiping }
      wipeList := rest
      wpe := .writing e 0 }
  | .idle, true, [] => s
  | .idle, false, _ => s
  | .writing _ _, _, _ => s
  | .verifying _ _ _, _, _ => s

end Sys2Proof.Machine

/-- R41, R45, R120, R121: INITIALIZATION_COMPLETE makes the bank READY and the Wipe Engine takes the Wipe List
head; an IDLE Wipe Engine takes the head in WPE_TAKE where the head is there to take (log 2); REFRESH makes refresh
pending yes, whether a unit is in progress or not, and grants nothing (log 16). R29, R41, R139, R140: what follows a take at once (log 2; its order log 37): the engine at rest starts on
the heads of both lists, waits for a FREE extent, or is IDLE, and is left alone in its other phases; then the Wipe
Engine takes the head of the Wipe List; then the arbiter grants. -/
def Obligations.BankAndWipeEngineStart : Prop :=
  (∀ s : State, s.resetn = false →
    (s.bankReady = false →
      exec .initializationComplete s = .next (State.settle { s with bankReady := true }) ∧
      ∀ e rest, s.wpe = .idle → s.wipeList = e :: rest →
        ∃ t, exec .initializationComplete s = .next t ∧ t.bankReady = true ∧ t.wpe = .writing e 0 ∧
          (t.entry e).st = .wiping ∧ t.wipeList = rest ∧ t.windows = s.windows ∧ t.ports = s.ports) ∧
    (∀ e rest, s.bankReady = true → s.wpe = .idle → s.wipeList = e :: rest →
      exec .wpeTake s = .next (State.grantMemory { s with
        extents := Tab.upd s.extents e fun x => { x with st := .wiping }
        wipeList := rest
        wpe := .writing e 0 })) ∧
    (s.bankReady = true → exec .refresh s = .next { s with refreshPending := true })) ∧
  (∀ s : State,
    (s.rle = .idle ∨ s.rle = .waiting →
      (s.relocList = [] → s.settle = State.grantMemory (State.wipeTaken { s with rle := .idle })) ∧
      (s.relocList ≠ [] → s.freeList = [] →
        s.settle = State.grantMemory (State.wipeTaken { s with rle := .waiting })) ∧
      (∀ src tgt rest free h i, s.relocList = src :: rest → s.freeList = tgt :: free →
        (s.entry src).st = .bound h i → src ≠ tgt →
        s.settle = State.grantMemory (State.wipeTaken { s with
          rle := .copying src tgt 0
          relocList := rest
          freeList := free
          extents := Tab.upd (Tab.upd s.extents src fun x => { x with st := .moving h i }) tgt
            fun x => { x with st := .target } }))) ∧
    (s.rle ≠ .idle → s.rle ≠ .waiting → s.settle = State.grantMemory s.wipeTaken))

namespace Sys2Proof.Machine

/-- Port `p` waits at an idle bank: it has an access ISSUED or ORPHANED (R123). -/
def Access.presented : Access → Bool
  | .issued _ | .orphaned _ => true
  | .idle | .stalled _ _ => false

/-- How far a port stands after another in the order AP0 to AP5, wrapping (R124). -/
def turnsAfter (last p : Port) : Nat := (p.val + 5 - last.val) % 6

/-- The target a write is mirrored to (R132): the engine's, for a write to its source below the pointer, until the
swap is taken (R138, R143; log 31). -/
def State.mirrorTarget (s : State) (p : Port) : Option Extent :=
  match s.rle, (s.port p).access.record, s.rle.relocation with
  | .cutover _ _ _ _ _ _ (.taken _ _), _, _ => none
  | _, some a, some (src, tgt, ptr) =>
    if a.op ≠ .read ∧ a.ext = src ∧ a.byteAddr / 64 < ptr then some tgt else none
  | _, some _, none => none
  | _, none, _ => none

/-- The wipe wait count after a grant to another requester (R125). -/
def State.wipePassedOver (s : State) : Nat := if s.wpe = .idle then s.wipeWait else min 16 (s.wipeWait + 1)

/-- The grant to the Wipe Engine (R122, R125). -/
def State.wipeGranted (s : State) (u : OpUnit) : State :=
  { s with unit := some u, prevGrant := some .wpe, wipeWait := 0 }

/-- Which unit the Wipe Engine presents (R42, R43). -/
def Wpe.presents : Wpe → Option OpUnit
  | .idle => none
  | .writing _ _ => some .wipe
  | .verifying _ _ _ => some .verify

end Sys2Proof.Machine

/-- R121, R123 to R126, R132: the arbiter. While a refresh is pending no grant is made, and a MEMORY_GRANT at an
idle bank finds the refresh over (its end has no row of its own: the model's choice, log 33). An idle READY bank with no refresh pending grants the Wipe Engine when its
wait count is 16; else the Relocation Engine unless it had the previous grant and a port waits; else the port of
the highest rank, in turn within the rank; else the Wipe Engine. The wait count rises by one, to 16, with a
grant that passes the Wipe Engine over. That nothing is mirrored once the swap is taken is the model's choice (log
31). -/
def Obligations.MemoryArbiterGrantsInOrder : Prop :=
  (∀ s : State, s.refreshPending = true → s.grantMemory = s ∧ (s.unit = none →
    exec .memoryGrant s = if s.resetn then .next s else exec .memoryGrant { s with refreshPending := false })) ∧
  ∀ s : State, s.resetn = false → s.bankReady = true → s.unit = none → s.refreshPending = false →
    (∀ u, s.wpe.presents = some u → s.wipeWait = 16 → exec .memoryGrant s = .next (s.wipeGranted u)) ∧
    (¬ (s.wpe ≠ .idle ∧ s.wipeWait = 16) →
      (s.rle.hasBlock = true →
        ¬ (s.prevGrant = some .rle ∧ ∃ p, (s.port p).access.presented = true) →
        exec .memoryGrant s = .next
          { s with unit := some .copy, prevGrant := some .rle, wipeWait := s.wipePassedOver }) ∧
      (¬ (s.rle.hasBlock = true ∧
          ¬ (s.prevGrant = some .rle ∧ ∃ p, (s.port p).access.presented = true)) →
        (∀ p, (s.port p).access.presented = true →
          (∀ q, (s.port q).access.presented = true → (s.account p).rank ≤ (s.account q).rank) →
          (∀ q, (s.port q).access.presented = true → (s.account q).rank = (s.account p).rank →
            turnsAfter (Tab.get s.lastGranted (s.account p).rank) p ≤
              turnsAfter (Tab.get s.lastGranted (s.account p).rank) q) →
          exec .memoryGrant s = .next
            { s with
              unit := some (.agent p (s.mirrorTarget p))
              prevGrant := some (.port p)
              wipeWait := s.wipePassedOver
              lastGranted := Tab.upd s.lastGranted (s.account p).rank fun _ => p }) ∧
        ((∀ p, (s.port p).access.presented = false) →
          (∀ u, s.wpe.presents = some u → exec .memoryGrant s = .next (s.wipeGranted u)) ∧
          (s.wpe = .idle → exec .memoryGrant s = .next s))))

namespace Sys2Proof.Machine

/-- The bank word number `i` of a block of an extent (R23, R178). -/
def State.blockWord (s : State) (e : Extent) (block i : Nat) : Nat :=
  e.val * s.wordsPerExtent + 16 * block + i

/-- `x` is a word of a block of an extent. -/
def State.InBlock (s : State) (e : Extent) (block x : Nat) : Prop := ∃ i, i < 16 ∧ x = s.blockWord e block i

/-- The bank `m` in place of the state's own, its words but those of which `stored` holds unchanged. -/
def BankKept (s : State) (m : Memory) (stored : Nat → Prop) : Prop :=
  ∀ x, ¬ stored x → Memory.stored s.epoch m x = s.word x

end Sys2Proof.Machine

/-- R30, R37, R42, R43, R134: a wipe block stores sixteen words of zeros and moves the pointer, at the last block
to VERIFYING; a verify block reads sixteen words, an outcome other than CLEAN marking the failure; at the last
block the extent is FREE at the Free List tail with its poisoned mark cleared, or QUARANTINED with cause VERIFY
and QUARANTINED added to the supervisor. The correctable count stays. Model's choices: the bits that the bank changed
since are an operand of the completion (log 7), the outcomes that R127 and R128 leave open are free values and the
statement holds for all of them (log 9). A pending refresh stays pending, and no grant is made then (R121). -/
def Obligations.WipeEngineWorksBlocks : Prop :=
  ∀ s : State, s.resetn = false → s.MemCanonical →
    (∀ e b, s.unit = some .wipe → s.wpe = .writing e b →
      ∃ m, (∀ i, i < 16 → Memory.stored s.epoch m (s.blockWord e b i) = ⟨some 0, 0⟩) ∧
        BankKept s m (s.InBlock e b) ∧
        exec .wipeBlockComplete s = .next (State.grantMemory { s with
          mem := m, unit := none
          wpe := if b + 1 < s.blocksPerExtent then .writing e (b + 1) else .verifying e 0 false })) ∧
    (∀ e b f (ch : Vector Bits39 16) (bad : Bool), s.unit = some .verify → s.wpe = .verifying e b f →
      (bad = true ↔ f = true ∨ ∃ i : Fin 16, ∀ d,
        outcomeOf (disturbed (s.word (s.blockWord e b i.val)) (Tab.get ch i)) ≠ .clean d) →
      ∃ m u, (∀ i : Fin 16, Memory.stored s.epoch m (s.blockWord e b i.val) =
            disturbed (s.word (s.blockWord e b i.val)) (Tab.get ch i)) ∧
        BankKept s m (s.InBlock e b) ∧ u = { s with mem := m, unit := none } ∧
        exec (.verifyBlockComplete ch) s = .next (State.settle
          (if b + 1 < s.blocksPerExtent then { u with wpe := .verifying e (b + 1) bad }
          else if bad then
            State.told { u with
              wpe := .idle
              extents := Tab.upd s.extents e fun x => { x with st := .quarantined .verify } }
              s.supervisor .quarantined
          else
            { u with
              wpe := .idle
              extents := Tab.upd s.extents e fun x => { x with st := .free, poisoned := false }
              freeList := s.freeList ++ [e] })))

/-! ### The Relocation Engine -/

namespace Sys2Proof.Machine

/-- What a block copy writes for a word read (R133): good data with fresh check bits, the poison mark for a word
that could not be read. -/
def copied (o : WordRead) : StoredWord :=
  match o with
  | .clean d => ⟨some d, 0⟩
  | .corrected d => ⟨some d, 0⟩
  | .uncorrectable => ⟨none, 0⟩
  | .poisoned => ⟨none, 0⟩

/-- An access after the engine handed the block's completion on (R54). -/
def Access.afterBlock : Access → Access
  | .stalled .block a => .issued a
  | .stalled .cutover a => .stalled .cutover a
  | .idle => .idle
  | .issued a => .issued a
  | .orphaned a => .orphaned a

/-- An access presented to the memory that names an extent. -/
def Access.presentedOn (e : Extent) : Access → Bool
  | .issued a | .orphaned a => decide (a.ext = e)
  | .idle | .stalled _ _ => false

/-- A block copied (R54, R133, R141, R153): words and ports after it, the target marked where a word was written
poisoned. `m` is the bank after it. -/
def State.blockCopied (s : State) (m : Memory) (tgt : Extent) (bad : Bool) : State :=
  { s with
    mem := m
    unit := none
    extents := if bad then Tab.upd s.extents tgt fun x => { x with poisoned := true } else s.extents
    ports := Tab.mapAll s.ports fun _ u => { u with access := u.access.afterBlock } }

/-- The bank after the copy of a block (R133). -/
def CopyDone (s : State) (m : Memory) (src tgt : Extent) (ptr : Nat) (ch : Vector Bits39 16) : Prop :=
  (∀ i : Fin 16, Memory.stored s.epoch m (s.blockWord src ptr i.val) =
    disturbed (s.word (s.blockWord src ptr i.val)) (Tab.get ch i)) ∧
  (∀ i : Fin 16, Memory.stored s.epoch m (s.blockWord tgt ptr i.val) =
    copied (outcomeOf (disturbed (s.word (s.blockWord src ptr i.val)) (Tab.get ch i)))) ∧
  BankKept s m (fun x => s.InBlock src ptr x ∨ s.InBlock tgt ptr x)

end Sys2Proof.Machine

/-- R133, R139, R141, R144, R150, R153: RELOCATION_START takes the heads of the two lists; a block copy writes
the target's sixteen words, marks the target where one is poisoned, issues BLOCK stalls and moves the pointer, at
the last block to CUTOVER with all six ports awaited; in ABANDONING the engine leaves its drain set, and where it
was the last member the drain ends as DRAIN_END or CLEAR_DRAIN_END says. Model's choices: the changed bits as an
operand (log 7), the ports' answers on their way at the entry to CUTOVER (log 19), the BLOCK stalls that a completion
releases presented before the grant made at that completion (log 37), and RELOCATION_START in a state in which a
start is due and what follows at once (log 2). -/
def Obligations.RelocationCopiesBlocks : Prop :=
  ∀ s : State, s.resetn = false →
    (∀ src tgt rest free h i, s.rle = .idle ∨ s.rle = .waiting → s.relocList = src :: rest →
      s.freeList = tgt :: free → (s.entry src).st = .bound h i → src ≠ tgt →
      exec .relocationStart s = .next (State.settle { s with
        rle := .copying src tgt 0
        relocList := rest
        freeList := free
        extents := Tab.upd (Tab.upd s.extents src fun x => { x with st := .moving h i }) tgt
          fun x => { x with st := .target } })) ∧
    (s.unit = some .copy → s.MemCanonical →
      ∀ (src tgt : Extent) (ptr : Nat) (ch : Vector Bits39 16) (bad : Bool), src ≠ tgt →
      ptr < s.blocksPerExtent →
      (bad = true ↔ ∃ i : Fin 16,
        copied (outcomeOf (disturbed (s.word (s.blockWord src ptr i.val)) (Tab.get ch i))) = ⟨none, 0⟩) →
      (s.rle = .copying src tgt ptr → ∃ m, CopyDone s m src tgt ptr ch ∧
        exec (.blockCopyComplete ch) s = .next (State.settle { s.blockCopied m tgt bad with
          rle := if ptr + 1 < s.blocksPerExtent then .copying src tgt (ptr + 1)
            else .cutover src tgt (ptr + 1) PortSet.all
              (PortSet.of fun p => !(s.port p).access.afterBlock.presentedOn src)
              (PortSet.of fun p => (s.port p).access.afterBlock.presentedOn src) .notRequested })) ∧
      (∀ w, s.rle = .abandoning src tgt ptr true (.window w) → (s.window w).drain.rle = true →
        s.underClear w = false → (s.window w).retiring ≠ [] → ∃ m u, CopyDone s m src tgt ptr ch ∧
          u = { s.blockCopied m tgt bad with
            rle := .abandoning src tgt (ptr + 1) false (.window w)
            windows := Tab.upd s.windows w fun x => { x with drain := x.drain.remove .rle } } ∧
          ((s.window w).drain.remove .rle ≠ DrainSet.empty →
            exec (.blockCopyComplete ch) s = .next u.settle) ∧
          ((s.window w).drain.remove .rle = DrainSet.empty →
            exec (.blockCopyComplete ch) s = exec (.drainEnd w) u)) ∧
      (∀ c, s.rle = .abandoning src tgt ptr true .clear → s.clearRec = some c → c.drain.rle = true →
        ∃ m u, CopyDone s m src tgt ptr ch ∧
          u = { s.blockCopied m tgt bad with
            rle := .abandoning src tgt (ptr + 1) false .clear
            clearRec := some { c with drain := c.drain.remove .rle } } ∧
          (c.drain.remove .rle ≠ DrainSet.empty → exec (.blockCopyComplete ch) s = .next u.settle) ∧
          (c.drain.remove .rle = DrainSet.empty →
            exec (.blockCopyComplete ch) s = exec .clearDrainEnd u)))

/-- R30, R144, R146: a clear answer removes its port from the awaited ones, a busy one does not, and the engine
asks for the swap when none is left; the swap puts the target in the source's place with count 0, BOUND, the
source is QUARANTINED with cause RELOCATED, the supervisor has MOVED and QUARANTINED, and the swap is handed to
every port. -/
def Obligations.CutoverSwapsExtents : Prop :=
  ∀ (s : State) (src tgt : Extent) (ptr : Nat), s.resetn = false →
    (∀ (p : Port) (aw cl bu : PortSet), s.rle = .cutover src tgt ptr aw cl bu .notRequested →
      (cl.has p = true → exec (.cutoverAnswer p) s = .next { s with
        rle := .cutover src tgt ptr (aw.erase p) (cl.erase p) bu
          (if aw.erase p = PortSet.none then .requested else .notRequested) }) ∧
      (cl.has p = false → exec (.cutoverAnswer p) s = .next { s with
        rle := .cutover src tgt ptr aw cl (bu.erase p) .notRequested })) ∧
    (∀ (aw cl bu : PortSet) (h : Handle) (i : Nat), s.rle = .cutover src tgt ptr aw cl bu .requested →
      (s.entry src).st = .moving h i → src ≠ tgt →
      exec .swap s = .next
        (State.told (State.told { s with
          windows := Tab.upd s.windows h.slot fun x => { x with extents := x.extents.set i tgt }
          extents := Tab.upd (Tab.upd s.extents tgt fun x => { x with st := .bound h i, count := 0 }) src
            fun x => { x with st := .quarantined .relocated }
          rle := .cutover src tgt ptr PortSet.none PortSet.none PortSet.none
            (.taken PortSet.all PortSet.all) } s.supervisor .quarantined) s.supervisor .moved))

namespace Sys2Proof.Machine

/-- A CUTOVER stall issued with its record changed by `f` (R55). -/
def Access.afterCutover (f : AccessRec → AccessRec) : Access → Access
  | .stalled .cutover a => .issued (f a)
  | .stalled .block a => .stalled .block a
  | .idle => .idle
  | .issued a => .issued a
  | .orphaned a => .orphaned a

end Sys2Proof.Machine

/-- R55, R139, R146, R147, R149: a port's take of the swap issues a CUTOVER stall against the extent that its
window's extent list has at its ordinal, which is the former target (log 31 for an access of which it is not), its
take of an abandonment issues it against the source; a port acknowledges after its take of the swap, and the last
acknowledgement brings the engine to rest, to start the next relocation if the lists allow. -/
def Obligations.PortsTakeSwapAndAbandonment : Prop :=
  ∀ (s : State) (p : Port), s.resetn = false →
    (∀ src tgt ptr aw cl bu ack hd, s.rle = .cutover src tgt ptr aw cl bu (.taken ack hd) →
      (hd.has p = true → exec (.portSwapTake p) s = .next (State.grantMemory { s with
        rle := .cutover src tgt ptr aw cl bu (.taken ack (hd.erase p))
        ports := Tab.upd s.ports p fun u => { u with access := u.access.afterCutover (s.atOrdinal tgt) } })) ∧
      (ack.has p = true → hd.has p = false →
        (ack.erase p ≠ PortSet.none → exec (.swapAcknowledge p) s = .next { s with
          rle := .cutover src tgt ptr aw cl bu (.taken (ack.erase p) hd) }) ∧
        (ack.erase p = PortSet.none →
          exec (.swapAcknowledge p) s = .next (State.settle { s with rle := .idle })))) ∧
    (s.abandonHanded.has p = true → exec (.abandonmentTake p) s = .next (State.grantMemory { s with
      abandonHanded := s.abandonHanded.erase p
      ports := Tab.upd s.ports p fun u => { u with access := u.access.afterCutover id } }))

/-! ### The whole part -/

/-- The frame of every command. Each command answers a next state, whatever it finds, also where its event is not
due: the model's choice (logs 1 and 15). R158 to R160, R162: quotas and ranks change only in SET QUOTA, SET RANK and a power-on, the threshold only in SET THRESHOLD and a power-on, the
straps only in a power-on, RESETn and ARSTn with their pins, a hold flag only in HOLD, RESUME and a power-on;
words of the bank change only in the completions of units and the two edges of RESETn; the queue never. -/
def Obligations.EveryCommandAnswersAndFrames : Prop :=
  ∀ (c : Instr) (s : State), ∃ t, exec c s = .next t ∧
    (t.accounts = s.accounts ∨ ∃ p k, c = .setQuota p ∨ c = .setRank p ∨ c = .resetnRelease k) ∧
    (t.threshold = s.threshold ∨ ∃ p k, c = .setThreshold p ∨ c = .resetnRelease k) ∧
    (t.straps = s.straps ∨ ∃ k, c = .resetnRelease k) ∧
    (t.resetn = s.resetn ∨ c = .resetnAssert ∨ ∃ k, c = .resetnRelease k) ∧
    ((∀ q, (t.port q).hold = (s.port q).hold) ∨ ∃ p k, c = .hold p ∨ c = .resume p ∨ c = .resetnRelease k) ∧
    ((∀ q, (t.port q).arstn = (s.port q).arstn) ∨ ∃ p, c = .arstnAssert p ∨ c = .arstnRelease p) ∧
    (t.mem = s.mem ∨ (∃ p b, c = .accessCompletion p b) ∨ c = .wipeBlockComplete ∨
      (∃ x, c = .verifyBlockComplete x ∨ c = .blockCopyComplete x) ∨ c = .resetnAssert ∨
      ∃ k, c = .resetnRelease k) ∧
    t.pending = s.pending

namespace Sys2Proof.Machine

/-- The invariants of single records and registers, and what happens at once. -/
def State.RecordsInv (s : State) : Prop :=
  s.MemCanonical ∧ s.SupervisorKinds ∧ s.CountsBounded ∧ s.OnlySupervisorInProgress ∧ s.AccountsInRange ∧
    s.ArbiterSane ∧ s.Settled

end Sys2Proof.Machine

/-- R16, R34, R69, R75, R119, R121: every step keeps the bank's list in its canonical form, MOVED and QUARANTINED
at the Supervisor Port only, counts within the threshold of 1 to 15, no slot but the supervisor's in progress,
quotas in range, the arbiter's registers sane, and leaves nothing undone that happens at once (log 2). The form of
the bank's list is the model's (log 5). -/
def Obligations.StepsKeepRecordsSound : Prop :=
  ∀ s t : State, s.RecordsInv → step s = .next t → t.RecordsInv

/-- R1 to R4, R10, R13 to R15, R171: every step keeps every window record well formed for its state, and every
agent's views at most 16, extent-aligned, within view space and apart from one another. -/
def Obligations.StepsKeepWindowsAndViewsSound : Prop :=
  ∀ s t : State, s.WindowsInv → step s = .next t → t.WindowsInv

/-- R2, R24, R25, R27, R29, R32, R38 to R40, R138: every step keeps the Extent Map, the lists, the windows and
the engines in agreement: each extent is in exactly the place its state says. -/
def Obligations.StepsKeepPoolCoherent : Prop :=
  ∀ s t : State, s.PoolInv → step s = .next t → t.PoolInv

/-- The invariants hold right after reset, whose straps are the model's choice (log 3), and after every release of
RESETn, also one that no assertion precedes, which the model performs by its choice (log 15). -/
def Obligations.InvariantsHoldAtReset : Prop :=
  (State.reset.RecordsInv ∧ State.reset.WindowsInv ∧ State.reset.PoolInv) ∧
    ∀ (k : Straps) (s : State), ∃ t, exec (.resetnRelease k) s = .next t ∧
      t.RecordsInv ∧ t.WindowsInv ∧ t.PoolInv
end

