-- ==== Sys2Proof/Laws/State.lean ====
section
/-!
SUPPORT. One lemma for each field of State under each update: what the update leaves, by rfl.
-/

namespace Sys2Proof.Machine

@[simp] theorem State.updPort_pending (s : State) (p : Port) (f : PortUnit → PortUnit) :
    (s.updPort p f).pending = s.pending := rfl
@[simp] theorem State.updPort_resetn (s : State) (p : Port) (f : PortUnit → PortUnit) :
    (s.updPort p f).resetn = s.resetn := rfl
@[simp] theorem State.updPort_straps (s : State) (p : Port) (f : PortUnit → PortUnit) :
    (s.updPort p f).straps = s.straps := rfl
@[simp] theorem State.updPort_ports (s : State) (p : Port) (f : PortUnit → PortUnit) :
    (s.updPort p f).ports = Tab.upd s.ports p f := rfl
@[simp] theorem State.updPort_windows (s : State) (p : Port) (f : PortUnit → PortUnit) :
    (s.updPort p f).windows = s.windows := rfl
@[simp] theorem State.updPort_accounts (s : State) (p : Port) (f : PortUnit → PortUnit) :
    (s.updPort p f).accounts = s.accounts := rfl
@[simp] theorem State.updPort_lastServed (s : State) (p : Port) (f : PortUnit → PortUnit) :
    (s.updPort p f).lastServed = s.lastServed := rfl
@[simp] theorem State.updPort_clearRec (s : State) (p : Port) (f : PortUnit → PortUnit) :
    (s.updPort p f).clearRec = s.clearRec := rfl
@[simp] theorem State.updPort_extents (s : State) (p : Port) (f : PortUnit → PortUnit) :
    (s.updPort p f).extents = s.extents := rfl
@[simp] theorem State.updPort_freeList (s : State) (p : Port) (f : PortUnit → PortUnit) :
    (s.updPort p f).freeList = s.freeList := rfl
@[simp] theorem State.updPort_wipeList (s : State) (p : Port) (f : PortUnit → PortUnit) :
    (s.updPort p f).wipeList = s.wipeList := rfl
@[simp] theorem State.updPort_relocList (s : State) (p : Port) (f : PortUnit → PortUnit) :
    (s.updPort p f).relocList = s.relocList := rfl
@[simp] theorem State.updPort_threshold (s : State) (p : Port) (f : PortUnit → PortUnit) :
    (s.updPort p f).threshold = s.threshold := rfl
@[simp] theorem State.updPort_wpe (s : State) (p : Port) (f : PortUnit → PortUnit) :
    (s.updPort p f).wpe = s.wpe := rfl
@[simp] theorem State.updPort_rle (s : State) (p : Port) (f : PortUnit → PortUnit) :
    (s.updPort p f).rle = s.rle := rfl
@[simp] theorem State.updPort_abandonHanded (s : State) (p : Port) (f : PortUnit → PortUnit) :
    (s.updPort p f).abandonHanded = s.abandonHanded := rfl
@[simp] theorem State.updPort_bankReady (s : State) (p : Port) (f : PortUnit → PortUnit) :
    (s.updPort p f).bankReady = s.bankReady := rfl
@[simp] theorem State.updPort_unit (s : State) (p : Port) (f : PortUnit → PortUnit) :
    (s.updPort p f).unit = s.unit := rfl
@[simp] theorem State.updPort_lastGranted (s : State) (p : Port) (f : PortUnit → PortUnit) :
    (s.updPort p f).lastGranted = s.lastGranted := rfl
@[simp] theorem State.updPort_prevGrant (s : State) (p : Port) (f : PortUnit → PortUnit) :
    (s.updPort p f).prevGrant = s.prevGrant := rfl
@[simp] theorem State.updPort_wipeWait (s : State) (p : Port) (f : PortUnit → PortUnit) :
    (s.updPort p f).wipeWait = s.wipeWait := rfl
@[simp] theorem State.updPort_refreshPending (s : State) (p : Port) (f : PortUnit → PortUnit) :
    (s.updPort p f).refreshPending = s.refreshPending := rfl
@[simp] theorem State.updPort_mem (s : State) (p : Port) (f : PortUnit → PortUnit) :
    (s.updPort p f).mem = s.mem := rfl
@[simp] theorem State.updPort_epoch (s : State) (p : Port) (f : PortUnit → PortUnit) :
    (s.updPort p f).epoch = s.epoch := rfl
@[simp] theorem State.updPort_freeIdx (s : State) (p : Port) (f : PortUnit → PortUnit) :
    (s.updPort p f).freeIdx = s.freeIdx := rfl

@[simp] theorem State.mapPorts_pending (s : State) (f : Port → PortUnit → PortUnit) :
    (s.mapPorts f).pending = s.pending := rfl
@[simp] theorem State.mapPorts_resetn (s : State) (f : Port → PortUnit → PortUnit) :
    (s.mapPorts f).resetn = s.resetn := rfl
@[simp] theorem State.mapPorts_straps (s : State) (f : Port → PortUnit → PortUnit) :
    (s.mapPorts f).straps = s.straps := rfl
@[simp] theorem State.mapPorts_ports (s : State) (f : Port → PortUnit → PortUnit) :
    (s.mapPorts f).ports = Tab.mapAll s.ports f := rfl
@[simp] theorem State.mapPorts_windows (s : State) (f : Port → PortUnit → PortUnit) :
    (s.mapPorts f).windows = s.windows := rfl
@[simp] theorem State.mapPorts_accounts (s : State) (f : Port → PortUnit → PortUnit) :
    (s.mapPorts f).accounts = s.accounts := rfl
@[simp] theorem State.mapPorts_lastServed (s : State) (f : Port → PortUnit → PortUnit) :
    (s.mapPorts f).lastServed = s.lastServed := rfl
@[simp] theorem State.mapPorts_clearRec (s : State) (f : Port → PortUnit → PortUnit) :
    (s.mapPorts f).clearRec = s.clearRec := rfl
@[simp] theorem State.mapPorts_extents (s : State) (f : Port → PortUnit → PortUnit) :
    (s.mapPorts f).extents = s.extents := rfl
@[simp] theorem State.mapPorts_freeList (s : State) (f : Port → PortUnit → PortUnit) :
    (s.mapPorts f).freeList = s.freeList := rfl
@[simp] theorem State.mapPorts_wipeList (s : State) (f : Port → PortUnit → PortUnit) :
    (s.mapPorts f).wipeList = s.wipeList := rfl
@[simp] theorem State.mapPorts_relocList (s : State) (f : Port → PortUnit → PortUnit) :
    (s.mapPorts f).relocList = s.relocList := rfl
@[simp] theorem State.mapPorts_threshold (s : State) (f : Port → PortUnit → PortUnit) :
    (s.mapPorts f).threshold = s.threshold := rfl
@[simp] theorem State.mapPorts_wpe (s : State) (f : Port → PortUnit → PortUnit) :
    (s.mapPorts f).wpe = s.wpe := rfl
@[simp] theorem State.mapPorts_rle (s : State) (f : Port → PortUnit → PortUnit) :
    (s.mapPorts f).rle = s.rle := rfl
@[simp] theorem State.mapPorts_abandonHanded (s : State) (f : Port → PortUnit → PortUnit) :
    (s.mapPorts f).abandonHanded = s.abandonHanded := rfl
@[simp] theorem State.mapPorts_bankReady (s : State) (f : Port → PortUnit → PortUnit) :
    (s.mapPorts f).bankReady = s.bankReady := rfl
@[simp] theorem State.mapPorts_unit (s : State) (f : Port → PortUnit → PortUnit) :
    (s.mapPorts f).unit = s.unit := rfl
@[simp] theorem State.mapPorts_lastGranted (s : State) (f : Port → PortUnit → PortUnit) :
    (s.mapPorts f).lastGranted = s.lastGranted := rfl
@[simp] theorem State.mapPorts_prevGrant (s : State) (f : Port → PortUnit → PortUnit) :
    (s.mapPorts f).prevGrant = s.prevGrant := rfl
@[simp] theorem State.mapPorts_wipeWait (s : State) (f : Port → PortUnit → PortUnit) :
    (s.mapPorts f).wipeWait = s.wipeWait := rfl
@[simp] theorem State.mapPorts_refreshPending (s : State) (f : Port → PortUnit → PortUnit) :
    (s.mapPorts f).refreshPending = s.refreshPending := rfl
@[simp] theorem State.mapPorts_mem (s : State) (f : Port → PortUnit → PortUnit) :
    (s.mapPorts f).mem = s.mem := rfl
@[simp] theorem State.mapPorts_epoch (s : State) (f : Port → PortUnit → PortUnit) :
    (s.mapPorts f).epoch = s.epoch := rfl
@[simp] theorem State.mapPorts_freeIdx (s : State) (f : Port → PortUnit → PortUnit) :
    (s.mapPorts f).freeIdx = s.freeIdx := rfl

@[simp] theorem State.updWindow_pending (s : State) (w : WSlot) (f : Window → Window) :
    (s.updWindow w f).pending = s.pending := rfl
@[simp] theorem State.updWindow_resetn (s : State) (w : WSlot) (f : Window → Window) :
    (s.updWindow w f).resetn = s.resetn := rfl
@[simp] theorem State.updWindow_straps (s : State) (w : WSlot) (f : Window → Window) :
    (s.updWindow w f).straps = s.straps := rfl
@[simp] theorem State.updWindow_ports (s : State) (w : WSlot) (f : Window → Window) :
    (s.updWindow w f).ports = s.ports := rfl
@[simp] theorem State.updWindow_windows (s : State) (w : WSlot) (f : Window → Window) :
    (s.updWindow w f).windows = Tab.upd s.windows w f := rfl
@[simp] theorem State.updWindow_accounts (s : State) (w : WSlot) (f : Window → Window) :
    (s.updWindow w f).accounts = s.accounts := rfl
@[simp] theorem State.updWindow_lastServed (s : State) (w : WSlot) (f : Window → Window) :
    (s.updWindow w f).lastServed = s.lastServed := rfl
@[simp] theorem State.updWindow_clearRec (s : State) (w : WSlot) (f : Window → Window) :
    (s.updWindow w f).clearRec = s.clearRec := rfl
@[simp] theorem State.updWindow_extents (s : State) (w : WSlot) (f : Window → Window) :
    (s.updWindow w f).extents = s.extents := rfl
@[simp] theorem State.updWindow_freeList (s : State) (w : WSlot) (f : Window → Window) :
    (s.updWindow w f).freeList = s.freeList := rfl
@[simp] theorem State.updWindow_wipeList (s : State) (w : WSlot) (f : Window → Window) :
    (s.updWindow w f).wipeList = s.wipeList := rfl
@[simp] theorem State.updWindow_relocList (s : State) (w : WSlot) (f : Window → Window) :
    (s.updWindow w f).relocList = s.relocList := rfl
@[simp] theorem State.updWindow_threshold (s : State) (w : WSlot) (f : Window → Window) :
    (s.updWindow w f).threshold = s.threshold := rfl
@[simp] theorem State.updWindow_wpe (s : State) (w : WSlot) (f : Window → Window) :
    (s.updWindow w f).wpe = s.wpe := rfl
@[simp] theorem State.updWindow_rle (s : State) (w : WSlot) (f : Window → Window) :
    (s.updWindow w f).rle = s.rle := rfl
@[simp] theorem State.updWindow_abandonHanded (s : State) (w : WSlot) (f : Window → Window) :
    (s.updWindow w f).abandonHanded = s.abandonHanded := rfl
@[simp] theorem State.updWindow_bankReady (s : State) (w : WSlot) (f : Window → Window) :
    (s.updWindow w f).bankReady = s.bankReady := rfl
@[simp] theorem State.updWindow_unit (s : State) (w : WSlot) (f : Window → Window) :
    (s.updWindow w f).unit = s.unit := rfl
@[simp] theorem State.updWindow_lastGranted (s : State) (w : WSlot) (f : Window → Window) :
    (s.updWindow w f).lastGranted = s.lastGranted := rfl
@[simp] theorem State.updWindow_prevGrant (s : State) (w : WSlot) (f : Window → Window) :
    (s.updWindow w f).prevGrant = s.prevGrant := rfl
@[simp] theorem State.updWindow_wipeWait (s : State) (w : WSlot) (f : Window → Window) :
    (s.updWindow w f).wipeWait = s.wipeWait := rfl
@[simp] theorem State.updWindow_refreshPending (s : State) (w : WSlot) (f : Window → Window) :
    (s.updWindow w f).refreshPending = s.refreshPending := rfl
@[simp] theorem State.updWindow_mem (s : State) (w : WSlot) (f : Window → Window) :
    (s.updWindow w f).mem = s.mem := rfl
@[simp] theorem State.updWindow_epoch (s : State) (w : WSlot) (f : Window → Window) :
    (s.updWindow w f).epoch = s.epoch := rfl
@[simp] theorem State.updWindow_freeIdx (s : State) (w : WSlot) (f : Window → Window) :
    (s.updWindow w f).freeIdx = s.freeIdx := rfl

@[simp] theorem State.mapWindows_pending (s : State) (f : WSlot → Window → Window) :
    (s.mapWindows f).pending = s.pending := rfl
@[simp] theorem State.mapWindows_resetn (s : State) (f : WSlot → Window → Window) :
    (s.mapWindows f).resetn = s.resetn := rfl
@[simp] theorem State.mapWindows_straps (s : State) (f : WSlot → Window → Window) :
    (s.mapWindows f).straps = s.straps := rfl
@[simp] theorem State.mapWindows_ports (s : State) (f : WSlot → Window → Window) :
    (s.mapWindows f).ports = s.ports := rfl
@[simp] theorem State.mapWindows_windows (s : State) (f : WSlot → Window → Window) :
    (s.mapWindows f).windows = Tab.mapAll s.windows f := rfl
@[simp] theorem State.mapWindows_accounts (s : State) (f : WSlot → Window → Window) :
    (s.mapWindows f).accounts = s.accounts := rfl
@[simp] theorem State.mapWindows_lastServed (s : State) (f : WSlot → Window → Window) :
    (s.mapWindows f).lastServed = s.lastServed := rfl
@[simp] theorem State.mapWindows_clearRec (s : State) (f : WSlot → Window → Window) :
    (s.mapWindows f).clearRec = s.clearRec := rfl
@[simp] theorem State.mapWindows_extents (s : State) (f : WSlot → Window → Window) :
    (s.mapWindows f).extents = s.extents := rfl
@[simp] theorem State.mapWindows_freeList (s : State) (f : WSlot → Window → Window) :
    (s.mapWindows f).freeList = s.freeList := rfl
@[simp] theorem State.mapWindows_wipeList (s : State) (f : WSlot → Window → Window) :
    (s.mapWindows f).wipeList = s.wipeList := rfl
@[simp] theorem State.mapWindows_relocList (s : State) (f : WSlot → Window → Window) :
    (s.mapWindows f).relocList = s.relocList := rfl
@[simp] theorem State.mapWindows_threshold (s : State) (f : WSlot → Window → Window) :
    (s.mapWindows f).threshold = s.threshold := rfl
@[simp] theorem State.mapWindows_wpe (s : State) (f : WSlot → Window → Window) :
    (s.mapWindows f).wpe = s.wpe := rfl
@[simp] theorem State.mapWindows_rle (s : State) (f : WSlot → Window → Window) :
    (s.mapWindows f).rle = s.rle := rfl
@[simp] theorem State.mapWindows_abandonHanded (s : State) (f : WSlot → Window → Window) :
    (s.mapWindows f).abandonHanded = s.abandonHanded := rfl
@[simp] theorem State.mapWindows_bankReady (s : State) (f : WSlot → Window → Window) :
    (s.mapWindows f).bankReady = s.bankReady := rfl
@[simp] theorem State.mapWindows_unit (s : State) (f : WSlot → Window → Window) :
    (s.mapWindows f).unit = s.unit := rfl
@[simp] theorem State.mapWindows_lastGranted (s : State) (f : WSlot → Window → Window) :
    (s.mapWindows f).lastGranted = s.lastGranted := rfl
@[simp] theorem State.mapWindows_prevGrant (s : State) (f : WSlot → Window → Window) :
    (s.mapWindows f).prevGrant = s.prevGrant := rfl
@[simp] theorem State.mapWindows_wipeWait (s : State) (f : WSlot → Window → Window) :
    (s.mapWindows f).wipeWait = s.wipeWait := rfl
@[simp] theorem State.mapWindows_refreshPending (s : State) (f : WSlot → Window → Window) :
    (s.mapWindows f).refreshPending = s.refreshPending := rfl
@[simp] theorem State.mapWindows_mem (s : State) (f : WSlot → Window → Window) :
    (s.mapWindows f).mem = s.mem := rfl
@[simp] theorem State.mapWindows_epoch (s : State) (f : WSlot → Window → Window) :
    (s.mapWindows f).epoch = s.epoch := rfl
@[simp] theorem State.mapWindows_freeIdx (s : State) (f : WSlot → Window → Window) :
    (s.mapWindows f).freeIdx = s.freeIdx := rfl

@[simp] theorem State.updExtent_pending (s : State) (e : Extent) (f : Entry → Entry) :
    (s.updExtent e f).pending = s.pending := rfl
@[simp] theorem State.updExtent_resetn (s : State) (e : Extent) (f : Entry → Entry) :
    (s.updExtent e f).resetn = s.resetn := rfl
@[simp] theorem State.updExtent_straps (s : State) (e : Extent) (f : Entry → Entry) :
    (s.updExtent e f).straps = s.straps := rfl
@[simp] theorem State.updExtent_ports (s : State) (e : Extent) (f : Entry → Entry) :
    (s.updExtent e f).ports = s.ports := rfl
@[simp] theorem State.updExtent_windows (s : State) (e : Extent) (f : Entry → Entry) :
    (s.updExtent e f).windows = s.windows := rfl
@[simp] theorem State.updExtent_accounts (s : State) (e : Extent) (f : Entry → Entry) :
    (s.updExtent e f).accounts = s.accounts := rfl
@[simp] theorem State.updExtent_lastServed (s : State) (e : Extent) (f : Entry → Entry) :
    (s.updExtent e f).lastServed = s.lastServed := rfl
@[simp] theorem State.updExtent_clearRec (s : State) (e : Extent) (f : Entry → Entry) :
    (s.updExtent e f).clearRec = s.clearRec := rfl
@[simp] theorem State.updExtent_extents (s : State) (e : Extent) (f : Entry → Entry) :
    (s.updExtent e f).extents = Tab.upd s.extents e f := rfl
@[simp] theorem State.updExtent_freeList (s : State) (e : Extent) (f : Entry → Entry) :
    (s.updExtent e f).freeList = s.freeList := rfl
@[simp] theorem State.updExtent_wipeList (s : State) (e : Extent) (f : Entry → Entry) :
    (s.updExtent e f).wipeList = s.wipeList := rfl
@[simp] theorem State.updExtent_relocList (s : State) (e : Extent) (f : Entry → Entry) :
    (s.updExtent e f).relocList = s.relocList := rfl
@[simp] theorem State.updExtent_threshold (s : State) (e : Extent) (f : Entry → Entry) :
    (s.updExtent e f).threshold = s.threshold := rfl
@[simp] theorem State.updExtent_wpe (s : State) (e : Extent) (f : Entry → Entry) :
    (s.updExtent e f).wpe = s.wpe := rfl
@[simp] theorem State.updExtent_rle (s : State) (e : Extent) (f : Entry → Entry) :
    (s.updExtent e f).rle = s.rle := rfl
@[simp] theorem State.updExtent_abandonHanded (s : State) (e : Extent) (f : Entry → Entry) :
    (s.updExtent e f).abandonHanded = s.abandonHanded := rfl
@[simp] theorem State.updExtent_bankReady (s : State) (e : Extent) (f : Entry → Entry) :
    (s.updExtent e f).bankReady = s.bankReady := rfl
@[simp] theorem State.updExtent_unit (s : State) (e : Extent) (f : Entry → Entry) :
    (s.updExtent e f).unit = s.unit := rfl
@[simp] theorem State.updExtent_lastGranted (s : State) (e : Extent) (f : Entry → Entry) :
    (s.updExtent e f).lastGranted = s.lastGranted := rfl
@[simp] theorem State.updExtent_prevGrant (s : State) (e : Extent) (f : Entry → Entry) :
    (s.updExtent e f).prevGrant = s.prevGrant := rfl
@[simp] theorem State.updExtent_wipeWait (s : State) (e : Extent) (f : Entry → Entry) :
    (s.updExtent e f).wipeWait = s.wipeWait := rfl
@[simp] theorem State.updExtent_refreshPending (s : State) (e : Extent) (f : Entry → Entry) :
    (s.updExtent e f).refreshPending = s.refreshPending := rfl
@[simp] theorem State.updExtent_mem (s : State) (e : Extent) (f : Entry → Entry) :
    (s.updExtent e f).mem = s.mem := rfl
@[simp] theorem State.updExtent_epoch (s : State) (e : Extent) (f : Entry → Entry) :
    (s.updExtent e f).epoch = s.epoch := rfl
@[simp] theorem State.updExtent_freeIdx (s : State) (e : Extent) (f : Entry → Entry) :
    (s.updExtent e f).freeIdx = s.freeIdx := rfl

@[simp] theorem State.mapExtents_pending (s : State) (f : Extent → Entry → Entry) :
    (s.mapExtents f).pending = s.pending := rfl
@[simp] theorem State.mapExtents_resetn (s : State) (f : Extent → Entry → Entry) :
    (s.mapExtents f).resetn = s.resetn := rfl
@[simp] theorem State.mapExtents_straps (s : State) (f : Extent → Entry → Entry) :
    (s.mapExtents f).straps = s.straps := rfl
@[simp] theorem State.mapExtents_ports (s : State) (f : Extent → Entry → Entry) :
    (s.mapExtents f).ports = s.ports := rfl
@[simp] theorem State.mapExtents_windows (s : State) (f : Extent → Entry → Entry) :
    (s.mapExtents f).windows = s.windows := rfl
@[simp] theorem State.mapExtents_accounts (s : State) (f : Extent → Entry → Entry) :
    (s.mapExtents f).accounts = s.accounts := rfl
@[simp] theorem State.mapExtents_lastServed (s : State) (f : Extent → Entry → Entry) :
    (s.mapExtents f).lastServed = s.lastServed := rfl
@[simp] theorem State.mapExtents_clearRec (s : State) (f : Extent → Entry → Entry) :
    (s.mapExtents f).clearRec = s.clearRec := rfl
@[simp] theorem State.mapExtents_extents (s : State) (f : Extent → Entry → Entry) :
    (s.mapExtents f).extents = Tab.mapAll s.extents f := rfl
@[simp] theorem State.mapExtents_freeList (s : State) (f : Extent → Entry → Entry) :
    (s.mapExtents f).freeList = s.freeList := rfl
@[simp] theorem State.mapExtents_wipeList (s : State) (f : Extent → Entry → Entry) :
    (s.mapExtents f).wipeList = s.wipeList := rfl
@[simp] theorem State.mapExtents_relocList (s : State) (f : Extent → Entry → Entry) :
    (s.mapExtents f).relocList = s.relocList := rfl
@[simp] theorem State.mapExtents_threshold (s : State) (f : Extent → Entry → Entry) :
    (s.mapExtents f).threshold = s.threshold := rfl
@[simp] theorem State.mapExtents_wpe (s : State) (f : Extent → Entry → Entry) :
    (s.mapExtents f).wpe = s.wpe := rfl
@[simp] theorem State.mapExtents_rle (s : State) (f : Extent → Entry → Entry) :
    (s.mapExtents f).rle = s.rle := rfl
@[simp] theorem State.mapExtents_abandonHanded (s : State) (f : Extent → Entry → Entry) :
    (s.mapExtents f).abandonHanded = s.abandonHanded := rfl
@[simp] theorem State.mapExtents_bankReady (s : State) (f : Extent → Entry → Entry) :
    (s.mapExtents f).bankReady = s.bankReady := rfl
@[simp] theorem State.mapExtents_unit (s : State) (f : Extent → Entry → Entry) :
    (s.mapExtents f).unit = s.unit := rfl
@[simp] theorem State.mapExtents_lastGranted (s : State) (f : Extent → Entry → Entry) :
    (s.mapExtents f).lastGranted = s.lastGranted := rfl
@[simp] theorem State.mapExtents_prevGrant (s : State) (f : Extent → Entry → Entry) :
    (s.mapExtents f).prevGrant = s.prevGrant := rfl
@[simp] theorem State.mapExtents_wipeWait (s : State) (f : Extent → Entry → Entry) :
    (s.mapExtents f).wipeWait = s.wipeWait := rfl
@[simp] theorem State.mapExtents_refreshPending (s : State) (f : Extent → Entry → Entry) :
    (s.mapExtents f).refreshPending = s.refreshPending := rfl
@[simp] theorem State.mapExtents_mem (s : State) (f : Extent → Entry → Entry) :
    (s.mapExtents f).mem = s.mem := rfl
@[simp] theorem State.mapExtents_epoch (s : State) (f : Extent → Entry → Entry) :
    (s.mapExtents f).epoch = s.epoch := rfl
@[simp] theorem State.mapExtents_freeIdx (s : State) (f : Extent → Entry → Entry) :
    (s.mapExtents f).freeIdx = s.freeIdx := rfl

@[simp] theorem State.updAccount_pending (s : State) (p : Port) (f : Account → Account) :
    (s.updAccount p f).pending = s.pending := rfl
@[simp] theorem State.updAccount_resetn (s : State) (p : Port) (f : Account → Account) :
    (s.updAccount p f).resetn = s.resetn := rfl
@[simp] theorem State.updAccount_straps (s : State) (p : Port) (f : Account → Account) :
    (s.updAccount p f).straps = s.straps := rfl
@[simp] theorem State.updAccount_ports (s : State) (p : Port) (f : Account → Account) :
    (s.updAccount p f).ports = s.ports := rfl
@[simp] theorem State.updAccount_windows (s : State) (p : Port) (f : Account → Account) :
    (s.updAccount p f).windows = s.windows := rfl
@[simp] theorem State.updAccount_accounts (s : State) (p : Port) (f : Account → Account) :
    (s.updAccount p f).accounts = Tab.upd s.accounts p f := rfl
@[simp] theorem State.updAccount_lastServed (s : State) (p : Port) (f : Account → Account) :
    (s.updAccount p f).lastServed = s.lastServed := rfl
@[simp] theorem State.updAccount_clearRec (s : State) (p : Port) (f : Account → Account) :
    (s.updAccount p f).clearRec = s.clearRec := rfl
@[simp] theorem State.updAccount_extents (s : State) (p : Port) (f : Account → Account) :
    (s.updAccount p f).extents = s.extents := rfl
@[simp] theorem State.updAccount_freeList (s : State) (p : Port) (f : Account → Account) :
    (s.updAccount p f).freeList = s.freeList := rfl
@[simp] theorem State.updAccount_wipeList (s : State) (p : Port) (f : Account → Account) :
    (s.updAccount p f).wipeList = s.wipeList := rfl
@[simp] theorem State.updAccount_relocList (s : State) (p : Port) (f : Account → Account) :
    (s.updAccount p f).relocList = s.relocList := rfl
@[simp] theorem State.updAccount_threshold (s : State) (p : Port) (f : Account → Account) :
    (s.updAccount p f).threshold = s.threshold := rfl
@[simp] theorem State.updAccount_wpe (s : State) (p : Port) (f : Account → Account) :
    (s.updAccount p f).wpe = s.wpe := rfl
@[simp] theorem State.updAccount_rle (s : State) (p : Port) (f : Account → Account) :
    (s.updAccount p f).rle = s.rle := rfl
@[simp] theorem State.updAccount_abandonHanded (s : State) (p : Port) (f : Account → Account) :
    (s.updAccount p f).abandonHanded = s.abandonHanded := rfl
@[simp] theorem State.updAccount_bankReady (s : State) (p : Port) (f : Account → Account) :
    (s.updAccount p f).bankReady = s.bankReady := rfl
@[simp] theorem State.updAccount_unit (s : State) (p : Port) (f : Account → Account) :
    (s.updAccount p f).unit = s.unit := rfl
@[simp] theorem State.updAccount_lastGranted (s : State) (p : Port) (f : Account → Account) :
    (s.updAccount p f).lastGranted = s.lastGranted := rfl
@[simp] theorem State.updAccount_prevGrant (s : State) (p : Port) (f : Account → Account) :
    (s.updAccount p f).prevGrant = s.prevGrant := rfl
@[simp] theorem State.updAccount_wipeWait (s : State) (p : Port) (f : Account → Account) :
    (s.updAccount p f).wipeWait = s.wipeWait := rfl
@[simp] theorem State.updAccount_refreshPending (s : State) (p : Port) (f : Account → Account) :
    (s.updAccount p f).refreshPending = s.refreshPending := rfl
@[simp] theorem State.updAccount_mem (s : State) (p : Port) (f : Account → Account) :
    (s.updAccount p f).mem = s.mem := rfl
@[simp] theorem State.updAccount_epoch (s : State) (p : Port) (f : Account → Account) :
    (s.updAccount p f).epoch = s.epoch := rfl
@[simp] theorem State.updAccount_freeIdx (s : State) (p : Port) (f : Account → Account) :
    (s.updAccount p f).freeIdx = s.freeIdx := rfl

@[simp] theorem State.addAttention_pending (s : State) (p : Port) (k : Kind) :
    (s.addAttention p k).pending = s.pending := rfl
@[simp] theorem State.addAttention_resetn (s : State) (p : Port) (k : Kind) :
    (s.addAttention p k).resetn = s.resetn := rfl
@[simp] theorem State.addAttention_straps (s : State) (p : Port) (k : Kind) :
    (s.addAttention p k).straps = s.straps := rfl
@[simp] theorem State.addAttention_windows (s : State) (p : Port) (k : Kind) :
    (s.addAttention p k).windows = s.windows := rfl
@[simp] theorem State.addAttention_accounts (s : State) (p : Port) (k : Kind) :
    (s.addAttention p k).accounts = s.accounts := rfl
@[simp] theorem State.addAttention_lastServed (s : State) (p : Port) (k : Kind) :
    (s.addAttention p k).lastServed = s.lastServed := rfl
@[simp] theorem State.addAttention_clearRec (s : State) (p : Port) (k : Kind) :
    (s.addAttention p k).clearRec = s.clearRec := rfl
@[simp] theorem State.addAttention_extents (s : State) (p : Port) (k : Kind) :
    (s.addAttention p k).extents = s.extents := rfl
@[simp] theorem State.addAttention_freeList (s : State) (p : Port) (k : Kind) :
    (s.addAttention p k).freeList = s.freeList := rfl
@[simp] theorem State.addAttention_wipeList (s : State) (p : Port) (k : Kind) :
    (s.addAttention p k).wipeList = s.wipeList := rfl
@[simp] theorem State.addAttention_relocList (s : State) (p : Port) (k : Kind) :
    (s.addAttention p k).relocList = s.relocList := rfl
@[simp] theorem State.addAttention_threshold (s : State) (p : Port) (k : Kind) :
    (s.addAttention p k).threshold = s.threshold := rfl
@[simp] theorem State.addAttention_wpe (s : State) (p : Port) (k : Kind) :
    (s.addAttention p k).wpe = s.wpe := rfl
@[simp] theorem State.addAttention_rle (s : State) (p : Port) (k : Kind) :
    (s.addAttention p k).rle = s.rle := rfl
@[simp] theorem State.addAttention_abandonHanded (s : State) (p : Port) (k : Kind) :
    (s.addAttention p k).abandonHanded = s.abandonHanded := rfl
@[simp] theorem State.addAttention_bankReady (s : State) (p : Port) (k : Kind) :
    (s.addAttention p k).bankReady = s.bankReady := rfl
@[simp] theorem State.addAttention_unit (s : State) (p : Port) (k : Kind) :
    (s.addAttention p k).unit = s.unit := rfl
@[simp] theorem State.addAttention_lastGranted (s : State) (p : Port) (k : Kind) :
    (s.addAttention p k).lastGranted = s.lastGranted := rfl
@[simp] theorem State.addAttention_prevGrant (s : State) (p : Port) (k : Kind) :
    (s.addAttention p k).prevGrant = s.prevGrant := rfl
@[simp] theorem State.addAttention_wipeWait (s : State) (p : Port) (k : Kind) :
    (s.addAttention p k).wipeWait = s.wipeWait := rfl
@[simp] theorem State.addAttention_refreshPending (s : State) (p : Port) (k : Kind) :
    (s.addAttention p k).refreshPending = s.refreshPending := rfl
@[simp] theorem State.addAttention_mem (s : State) (p : Port) (k : Kind) :
    (s.addAttention p k).mem = s.mem := rfl
@[simp] theorem State.addAttention_epoch (s : State) (p : Port) (k : Kind) :
    (s.addAttention p k).epoch = s.epoch := rfl
@[simp] theorem State.addAttention_freeIdx (s : State) (p : Port) (k : Kind) :
    (s.addAttention p k).freeIdx = s.freeIdx := rfl

@[simp] theorem State.addAttentionWhere_pending (s : State) (c : Port → Bool) (k : Kind) :
    (s.addAttentionWhere c k).pending = s.pending := rfl
@[simp] theorem State.addAttentionWhere_resetn (s : State) (c : Port → Bool) (k : Kind) :
    (s.addAttentionWhere c k).resetn = s.resetn := rfl
@[simp] theorem State.addAttentionWhere_straps (s : State) (c : Port → Bool) (k : Kind) :
    (s.addAttentionWhere c k).straps = s.straps := rfl
@[simp] theorem State.addAttentionWhere_windows (s : State) (c : Port → Bool) (k : Kind) :
    (s.addAttentionWhere c k).windows = s.windows := rfl
@[simp] theorem State.addAttentionWhere_accounts (s : State) (c : Port → Bool) (k : Kind) :
    (s.addAttentionWhere c k).accounts = s.accounts := rfl
@[simp] theorem State.addAttentionWhere_lastServed (s : State) (c : Port → Bool) (k : Kind) :
    (s.addAttentionWhere c k).lastServed = s.lastServed := rfl
@[simp] theorem State.addAttentionWhere_clearRec (s : State) (c : Port → Bool) (k : Kind) :
    (s.addAttentionWhere c k).clearRec = s.clearRec := rfl
@[simp] theorem State.addAttentionWhere_extents (s : State) (c : Port → Bool) (k : Kind) :
    (s.addAttentionWhere c k).extents = s.extents := rfl
@[simp] theorem State.addAttentionWhere_freeList (s : State) (c : Port → Bool) (k : Kind) :
    (s.addAttentionWhere c k).freeList = s.freeList := rfl
@[simp] theorem State.addAttentionWhere_wipeList (s : State) (c : Port → Bool) (k : Kind) :
    (s.addAttentionWhere c k).wipeList = s.wipeList := rfl
@[simp] theorem State.addAttentionWhere_relocList (s : State) (c : Port → Bool) (k : Kind) :
    (s.addAttentionWhere c k).relocList = s.relocList := rfl
@[simp] theorem State.addAttentionWhere_threshold (s : State) (c : Port → Bool) (k : Kind) :
    (s.addAttentionWhere c k).threshold = s.threshold := rfl
@[simp] theorem State.addAttentionWhere_wpe (s : State) (c : Port → Bool) (k : Kind) :
    (s.addAttentionWhere c k).wpe = s.wpe := rfl
@[simp] theorem State.addAttentionWhere_rle (s : State) (c : Port → Bool) (k : Kind) :
    (s.addAttentionWhere c k).rle = s.rle := rfl
@[simp] theorem State.addAttentionWhere_abandonHanded (s : State) (c : Port → Bool) (k : Kind) :
    (s.addAttentionWhere c k).abandonHanded = s.abandonHanded := rfl
@[simp] theorem State.addAttentionWhere_bankReady (s : State) (c : Port → Bool) (k : Kind) :
    (s.addAttentionWhere c k).bankReady = s.bankReady := rfl
@[simp] theorem State.addAttentionWhere_unit (s : State) (c : Port → Bool) (k : Kind) :
    (s.addAttentionWhere c k).unit = s.unit := rfl
@[simp] theorem State.addAttentionWhere_lastGranted (s : State) (c : Port → Bool) (k : Kind) :
    (s.addAttentionWhere c k).lastGranted = s.lastGranted := rfl
@[simp] theorem State.addAttentionWhere_prevGrant (s : State) (c : Port → Bool) (k : Kind) :
    (s.addAttentionWhere c k).prevGrant = s.prevGrant := rfl
@[simp] theorem State.addAttentionWhere_wipeWait (s : State) (c : Port → Bool) (k : Kind) :
    (s.addAttentionWhere c k).wipeWait = s.wipeWait := rfl
@[simp] theorem State.addAttentionWhere_refreshPending (s : State) (c : Port → Bool) (k : Kind) :
    (s.addAttentionWhere c k).refreshPending = s.refreshPending := rfl
@[simp] theorem State.addAttentionWhere_mem (s : State) (c : Port → Bool) (k : Kind) :
    (s.addAttentionWhere c k).mem = s.mem := rfl
@[simp] theorem State.addAttentionWhere_epoch (s : State) (c : Port → Bool) (k : Kind) :
    (s.addAttentionWhere c k).epoch = s.epoch := rfl
@[simp] theorem State.addAttentionWhere_freeIdx (s : State) (c : Port → Bool) (k : Kind) :
    (s.addAttentionWhere c k).freeIdx = s.freeIdx := rfl

@[simp] theorem State.respond_pending (s : State) (p : Port) (c : BusCode) (d : Option Word) :
    (s.respond p c d).pending = s.pending := rfl
@[simp] theorem State.respond_resetn (s : State) (p : Port) (c : BusCode) (d : Option Word) :
    (s.respond p c d).resetn = s.resetn := rfl
@[simp] theorem State.respond_straps (s : State) (p : Port) (c : BusCode) (d : Option Word) :
    (s.respond p c d).straps = s.straps := rfl
@[simp] theorem State.respond_windows (s : State) (p : Port) (c : BusCode) (d : Option Word) :
    (s.respond p c d).windows = s.windows := rfl
@[simp] theorem State.respond_accounts (s : State) (p : Port) (c : BusCode) (d : Option Word) :
    (s.respond p c d).accounts = s.accounts := rfl
@[simp] theorem State.respond_lastServed (s : State) (p : Port) (c : BusCode) (d : Option Word) :
    (s.respond p c d).lastServed = s.lastServed := rfl
@[simp] theorem State.respond_clearRec (s : State) (p : Port) (c : BusCode) (d : Option Word) :
    (s.respond p c d).clearRec = s.clearRec := rfl
@[simp] theorem State.respond_extents (s : State) (p : Port) (c : BusCode) (d : Option Word) :
    (s.respond p c d).extents = s.extents := rfl
@[simp] theorem State.respond_freeList (s : State) (p : Port) (c : BusCode) (d : Option Word) :
    (s.respond p c d).freeList = s.freeList := rfl
@[simp] theorem State.respond_wipeList (s : State) (p : Port) (c : BusCode) (d : Option Word) :
    (s.respond p c d).wipeList = s.wipeList := rfl
@[simp] theorem State.respond_relocList (s : State) (p : Port) (c : BusCode) (d : Option Word) :
    (s.respond p c d).relocList = s.relocList := rfl
@[simp] theorem State.respond_threshold (s : State) (p : Port) (c : BusCode) (d : Option Word) :
    (s.respond p c d).threshold = s.threshold := rfl
@[simp] theorem State.respond_wpe (s : State) (p : Port) (c : BusCode) (d : Option Word) :
    (s.respond p c d).wpe = s.wpe := rfl
@[simp] theorem State.respond_rle (s : State) (p : Port) (c : BusCode) (d : Option Word) :
    (s.respond p c d).rle = s.rle := rfl
@[simp] theorem State.respond_abandonHanded (s : State) (p : Port) (c : BusCode) (d : Option Word) :
    (s.respond p c d).abandonHanded = s.abandonHanded := rfl
@[simp] theorem State.respond_bankReady (s : State) (p : Port) (c : BusCode) (d : Option Word) :
    (s.respond p c d).bankReady = s.bankReady := rfl
@[simp] theorem State.respond_unit (s : State) (p : Port) (c : BusCode) (d : Option Word) :
    (s.respond p c d).unit = s.unit := rfl
@[simp] theorem State.respond_lastGranted (s : State) (p : Port) (c : BusCode) (d : Option Word) :
    (s.respond p c d).lastGranted = s.lastGranted := rfl
@[simp] theorem State.respond_prevGrant (s : State) (p : Port) (c : BusCode) (d : Option Word) :
    (s.respond p c d).prevGrant = s.prevGrant := rfl
@[simp] theorem State.respond_wipeWait (s : State) (p : Port) (c : BusCode) (d : Option Word) :
    (s.respond p c d).wipeWait = s.wipeWait := rfl
@[simp] theorem State.respond_refreshPending (s : State) (p : Port) (c : BusCode) (d : Option Word) :
    (s.respond p c d).refreshPending = s.refreshPending := rfl
@[simp] theorem State.respond_mem (s : State) (p : Port) (c : BusCode) (d : Option Word) :
    (s.respond p c d).mem = s.mem := rfl
@[simp] theorem State.respond_epoch (s : State) (p : Port) (c : BusCode) (d : Option Word) :
    (s.respond p c d).epoch = s.epoch := rfl
@[simp] theorem State.respond_freeIdx (s : State) (p : Port) (c : BusCode) (d : Option Word) :
    (s.respond p c d).freeIdx = s.freeIdx := rfl

@[simp] theorem State.finish_pending (s : State) (p : Port) (st : Status) (r : Words4) :
    (s.finish p st r).pending = s.pending := rfl
@[simp] theorem State.finish_resetn (s : State) (p : Port) (st : Status) (r : Words4) :
    (s.finish p st r).resetn = s.resetn := rfl
@[simp] theorem State.finish_straps (s : State) (p : Port) (st : Status) (r : Words4) :
    (s.finish p st r).straps = s.straps := rfl
@[simp] theorem State.finish_windows (s : State) (p : Port) (st : Status) (r : Words4) :
    (s.finish p st r).windows = s.windows := rfl
@[simp] theorem State.finish_accounts (s : State) (p : Port) (st : Status) (r : Words4) :
    (s.finish p st r).accounts = s.accounts := rfl
@[simp] theorem State.finish_lastServed (s : State) (p : Port) (st : Status) (r : Words4) :
    (s.finish p st r).lastServed = s.lastServed := rfl
@[simp] theorem State.finish_clearRec (s : State) (p : Port) (st : Status) (r : Words4) :
    (s.finish p st r).clearRec = s.clearRec := rfl
@[simp] theorem State.finish_extents (s : State) (p : Port) (st : Status) (r : Words4) :
    (s.finish p st r).extents = s.extents := rfl
@[simp] theorem State.finish_freeList (s : State) (p : Port) (st : Status) (r : Words4) :
    (s.finish p st r).freeList = s.freeList := rfl
@[simp] theorem State.finish_wipeList (s : State) (p : Port) (st : Status) (r : Words4) :
    (s.finish p st r).wipeList = s.wipeList := rfl
@[simp] theorem State.finish_relocList (s : State) (p : Port) (st : Status) (r : Words4) :
    (s.finish p st r).relocList = s.relocList := rfl
@[simp] theorem State.finish_threshold (s : State) (p : Port) (st : Status) (r : Words4) :
    (s.finish p st r).threshold = s.threshold := rfl
@[simp] theorem State.finish_wpe (s : State) (p : Port) (st : Status) (r : Words4) :
    (s.finish p st r).wpe = s.wpe := rfl
@[simp] theorem State.finish_rle (s : State) (p : Port) (st : Status) (r : Words4) :
    (s.finish p st r).rle = s.rle := rfl
@[simp] theorem State.finish_abandonHanded (s : State) (p : Port) (st : Status) (r : Words4) :
    (s.finish p st r).abandonHanded = s.abandonHanded := rfl
@[simp] theorem State.finish_bankReady (s : State) (p : Port) (st : Status) (r : Words4) :
    (s.finish p st r).bankReady = s.bankReady := rfl
@[simp] theorem State.finish_unit (s : State) (p : Port) (st : Status) (r : Words4) :
    (s.finish p st r).unit = s.unit := rfl
@[simp] theorem State.finish_lastGranted (s : State) (p : Port) (st : Status) (r : Words4) :
    (s.finish p st r).lastGranted = s.lastGranted := rfl
@[simp] theorem State.finish_prevGrant (s : State) (p : Port) (st : Status) (r : Words4) :
    (s.finish p st r).prevGrant = s.prevGrant := rfl
@[simp] theorem State.finish_wipeWait (s : State) (p : Port) (st : Status) (r : Words4) :
    (s.finish p st r).wipeWait = s.wipeWait := rfl
@[simp] theorem State.finish_refreshPending (s : State) (p : Port) (st : Status) (r : Words4) :
    (s.finish p st r).refreshPending = s.refreshPending := rfl
@[simp] theorem State.finish_mem (s : State) (p : Port) (st : Status) (r : Words4) :
    (s.finish p st r).mem = s.mem := rfl
@[simp] theorem State.finish_epoch (s : State) (p : Port) (st : Status) (r : Words4) :
    (s.finish p st r).epoch = s.epoch := rfl
@[simp] theorem State.finish_freeIdx (s : State) (p : Port) (st : Status) (r : Words4) :
    (s.finish p st r).freeIdx = s.freeIdx := rfl

end Sys2Proof.Machine
end

