-- ==== Sys2Proof/Laws/Tables.lean ====
section
/-!
SUPPORT. What reading a table after a change of it gives, set membership, and the canonical form of the
bank's list under every memory operation.
-/

namespace Sys2Proof.Machine

section Tables

variable {α : Type} {n : Nat}

@[simp] theorem Tab.get_upd_self (v : Vector α n) (i : Fin n) (f : α → α) :
    Tab.get (Tab.upd v i f) i = f (Tab.get v i) := by
  simp [Tab.get, Tab.upd]

theorem Tab.get_upd_of_ne (v : Vector α n) {i j : Fin n} (h : j ≠ i) (f : α → α) :
    Tab.get (Tab.upd v i f) j = Tab.get v j := by
  have : i.val ≠ j.val := fun e => h (Fin.ext e.symm)
  simp [Tab.get, Tab.upd, this]

theorem Tab.get_upd (v : Vector α n) (i j : Fin n) (f : α → α) :
    Tab.get (Tab.upd v i f) j = if j = i then f (Tab.get v j) else Tab.get v j := by
  by_cases h : j = i
  · subst h; simp
  · simp [h, Tab.get_upd_of_ne v h f]

theorem Tab.mapFrom_getElem (f : Fin n → α → α) (k : Nat) (l : List α) (i : Nat)
    (hi : i < l.length) (hn : k + i < n) :
    (Tab.mapFrom f k l)[i]'(by simpa [Tab.mapFrom_length] using hi) = f ⟨k + i, hn⟩ (l[i]) := by
  induction l generalizing k i with
  | nil => simp at hi
  | cons x xs ih =>
    cases i with
    | zero =>
      have hk : k < n := by omega
      simp [Tab.mapFrom, hk]
    | succ j =>
      have := ih (k + 1) j (by simpa using hi) (by omega)
      have e : k + 1 + j = k + (j + 1) := by omega
      simp only [Tab.mapFrom, List.getElem_cons_succ]
      rw [this]
      congr 1
      exact Fin.ext e

@[simp] theorem Tab.get_mapAll (v : Vector α n) (f : Fin n → α → α) (i : Fin n) :
    Tab.get (Tab.mapAll v f) i = f i (Tab.get v i) := by
  have h := Tab.mapFrom_getElem f 0 v.toList i.val (by simp) (by simp)
  simp only [Tab.get, Tab.mapAll]
  simpa using h

/-- Two tables with the same entries are the same table. -/
theorem Tab.ext {v u : Vector α n} (h : ∀ i, Tab.get v i = Tab.get u i) : v = u := by
  apply Vector.ext
  intro i hi
  exact h ⟨i, hi⟩

/-- Two changes of one entry are one. -/
theorem Tab.upd_upd (v : Vector α n) (i : Fin n) (f g : α → α) :
    Tab.upd (Tab.upd v i f) i g = Tab.upd v i fun x => g (f x) := by
  apply Tab.ext
  intro j
  by_cases h : j = i
  · subst h; simp
  · simp [Tab.get_upd_of_ne _ h]

/-- A change that depends on the entry only through its value there. -/
theorem Tab.upd_congr (v : Vector α n) (i : Fin n) {f g : α → α} (h : f (Tab.get v i) = g (Tab.get v i)) :
    Tab.upd v i f = Tab.upd v i g := by
  apply Tab.ext
  intro j
  by_cases hj : j = i
  · subst hj; simp [h]
  · simp [Tab.get_upd_of_ne _ hj]

theorem Tab.mem_whereFrom (test : Fin n → α → Bool) (k : Nat) (l : List α) (i : Fin n) :
    i ∈ Tab.whereFrom test k l ↔
      k ≤ i.val ∧ ∃ h : i.val - k < l.length, test i (l[i.val - k]) = true := by
  induction l generalizing k with
  | nil => simp [Tab.whereFrom]
  | cons x xs ih =>
    have step : i ∈ Tab.whereFrom test (k + 1) xs ↔
        k + 1 ≤ i.val ∧ ∃ h : i.val - (k + 1) < xs.length, test i (xs[i.val - (k + 1)]) = true := ih (k + 1)
    have tail : (k + 1 ≤ i.val ∧ ∃ h : i.val - (k + 1) < xs.length, test i (xs[i.val - (k + 1)]) = true) ↔
        (k < i.val ∧ ∃ h : i.val - k < (x :: xs).length, test i ((x :: xs)[i.val - k]) = true) := by
      constructor
      · rintro ⟨h1, h2, h3⟩
        refine ⟨by omega, by simp; omega, ?_⟩
        have e : i.val - k = (i.val - (k + 1)) + 1 := by omega
        simp only [e, List.getElem_cons_succ]
        exact h3
      · rintro ⟨h1, h2, h3⟩
        have e : i.val - k = (i.val - (k + 1)) + 1 := by omega
        refine ⟨by omega, by simp at h2; omega, ?_⟩
        simp only [e, List.getElem_cons_succ] at h3
        exact h3
    unfold Tab.whereFrom
    by_cases hk : k < n
    · simp only [hk, dif_pos]
      by_cases ht : test ⟨k, hk⟩ x = true
      · rw [if_pos ht, List.mem_cons, step, tail]
        constructor
        · rintro (h | ⟨h1, h2⟩)
          · subst h; refine ⟨le_refl _, by simp, ?_⟩; simpa using ht
          · exact ⟨by omega, h2⟩
        · rintro ⟨h1, h2⟩
          by_cases he : i.val = k
          · left; exact Fin.ext he
          · right; exact ⟨by omega, h2⟩
      · rw [if_neg ht, step, tail]
        constructor
        · rintro ⟨h1, h2⟩; exact ⟨by omega, h2⟩
        · rintro ⟨h1, h2, h3⟩
          refine ⟨?_, h2, h3⟩
          by_contra hc
          have he : i.val = k := by omega
          have : i = ⟨k, hk⟩ := Fin.ext he
          subst this
          simp at h3
          exact ht h3
    · have hi := i.isLt
      simp only [hk, dif_neg, not_false_eq_true]
      rw [step, tail]
      constructor
      · rintro ⟨h1, h2⟩; omega
      · rintro ⟨h1, h2⟩; omega

/-- The indices listed are exactly the entries that pass. -/
@[simp] theorem Tab.mem_indices (v : Vector α n) (test : Fin n → α → Bool) (i : Fin n) :
    i ∈ Tab.indices v test ↔ test i (Tab.get v i) = true := by
  simp [Tab.indices, Tab.mem_whereFrom, Tab.get]

/-- The indices listed stand in ascending order. -/
theorem Tab.whereFrom_pairwise (test : Fin n → α → Bool) (k : Nat) (l : List α) :
    (Tab.whereFrom test k l).Pairwise (· < ·) := by
  induction l generalizing k with
  | nil => simp [Tab.whereFrom]
  | cons x xs ih =>
    unfold Tab.whereFrom
    by_cases hk : k < n
    · simp only [hk, dif_pos]
      by_cases ht : test ⟨k, hk⟩ x = true
      · rw [if_pos ht, List.pairwise_cons]
        refine ⟨?_, ih (k + 1)⟩
        intro j hj
        have := (Tab.mem_whereFrom test (k + 1) xs j).1 hj
        exact Fin.lt_def.2 (by simp; omega)
      · rw [if_neg ht]; exact ih (k + 1)
    · simp only [hk, dif_neg, not_false_eq_true]; exact ih (k + 1)

theorem Tab.indices_pairwise (v : Vector α n) (test : Fin n → α → Bool) :
    (Tab.indices v test).Pairwise (· < ·) := Tab.whereFrom_pairwise test 0 v.toList

theorem Tab.indices_nodup (v : Vector α n) (test : Fin n → α → Bool) : (Tab.indices v test).Nodup :=
  (Tab.indices_pairwise v test).imp fun h => ne_of_lt h

end Tables

section Rows

/-- The record of a port after a change of one. -/
theorem State.port_updPort (s : State) (p q : Port) (f : PortUnit → PortUnit) :
    (s.updPort p f).port q = if q = p then f (s.port q) else s.port q := Tab.get_upd _ _ _ _

@[simp] theorem State.port_updPort_self (s : State) (p : Port) (f : PortUnit → PortUnit) :
    (s.updPort p f).port p = f (s.port p) := Tab.get_upd_self _ _ _

theorem State.port_updPort_of_ne (s : State) {p q : Port} (h : q ≠ p) (f : PortUnit → PortUnit) :
    (s.updPort p f).port q = s.port q := Tab.get_upd_of_ne _ h _

@[simp] theorem State.port_mapPorts (s : State) (f : Port → PortUnit → PortUnit) (q : Port) :
    (s.mapPorts f).port q = f q (s.port q) := Tab.get_mapAll _ _ _

theorem State.window_updWindow (s : State) (w v : WSlot) (f : Window → Window) :
    (s.updWindow w f).window v = if v = w then f (s.window v) else s.window v := Tab.get_upd _ _ _ _

@[simp] theorem State.window_updWindow_self (s : State) (w : WSlot) (f : Window → Window) :
    (s.updWindow w f).window w = f (s.window w) := Tab.get_upd_self _ _ _

theorem State.window_updWindow_of_ne (s : State) {w v : WSlot} (h : v ≠ w) (f : Window → Window) :
    (s.updWindow w f).window v = s.window v := Tab.get_upd_of_ne _ h _

@[simp] theorem State.window_mapWindows (s : State) (f : WSlot → Window → Window) (w : WSlot) :
    (s.mapWindows f).window w = f w (s.window w) := Tab.get_mapAll _ _ _

theorem State.entry_updExtent (s : State) (e x : Extent) (f : Entry → Entry) :
    (s.updExtent e f).entry x = if x = e then f (s.entry x) else s.entry x := Tab.get_upd _ _ _ _

@[simp] theorem State.entry_updExtent_self (s : State) (e : Extent) (f : Entry → Entry) :
    (s.updExtent e f).entry e = f (s.entry e) := Tab.get_upd_self _ _ _

theorem State.entry_updExtent_of_ne (s : State) {e x : Extent} (h : x ≠ e) (f : Entry → Entry) :
    (s.updExtent e f).entry x = s.entry x := Tab.get_upd_of_ne _ h _

@[simp] theorem State.entry_mapExtents (s : State) (f : Extent → Entry → Entry) (e : Extent) :
    (s.mapExtents f).entry e = f e (s.entry e) := Tab.get_mapAll _ _ _

theorem State.account_updAccount (s : State) (p q : Port) (f : Account → Account) :
    (s.updAccount p f).account q = if q = p then f (s.account q) else s.account q := Tab.get_upd _ _ _ _

end Rows

section Sets

@[simp] theorem PortSet.has_of (f : Port → Bool) (p : Port) : (PortSet.of f).has p = f p := by
  simp [PortSet.of, PortSet.has]

@[simp] theorem PortSet.has_none (p : Port) : PortSet.none.has p = false := by
  simp [PortSet.none, PortSet.has]

@[simp] theorem PortSet.has_all (p : Port) : PortSet.all.has p = true := by
  simp [PortSet.all, PortSet.has]

theorem PortSet.has_erase (x : PortSet) (p q : Port) :
    (x.erase p).has q = (decide (q ≠ p) && x.has q) := by
  by_cases h : q = p
  · subst h; simp [PortSet.erase, PortSet.has]
  · have : p.val ≠ q.val := fun e => h (Fin.ext e.symm)
    simp [PortSet.erase, PortSet.has, h, this]

@[simp] theorem PortSet.has_union (x y : PortSet) (p : Port) : (x.union y).has p = (x.has p || y.has p) := by
  simp [PortSet.union]

theorem PortSet.ext {x y : PortSet} (h : ∀ p, x.has p = y.has p) : x = y := by
  apply Vector.ext
  intro i hi
  exact h ⟨i, hi⟩

theorem PortSet.isEmpty_iff (x : PortSet) : x.isEmpty = true ↔ ∀ p, x.has p = false := by
  rw [PortSet.isEmpty, decide_eq_true_iff]
  exact ⟨fun h p => by subst h; simp, fun h => PortSet.ext fun p => by simp [h p]⟩

theorem DrainSet.isEmpty_iff (d : DrainSet) : d.isEmpty = true ↔ d = DrainSet.empty := by
  cases d with
  | mk ports rle =>
    simp [DrainSet.isEmpty, DrainSet.empty, PortSet.isEmpty]

end Sets

section Bank

theorem Memory.wf_cons (x : Nat × StoredWord) (m : Memory) :
    Memory.wf (x :: m) = true ↔ (∀ y ∈ m.head?, x.1 < y.1) ∧ Memory.wf m = true := by
  cases m with
  | nil => simp [Memory.wf]
  | cons y m => simp [Memory.wf]

/-- The head of the list after a word is stored: the lower of the address and the former head. -/
theorem Memory.put_head (m : Memory) (a : Nat) (w : StoredWord) (b : Nat) (ha : b < a)
    (hm : ∀ y ∈ m.head?, b < y.1) : ∀ y ∈ (Memory.put m a w).head?, b < y.1 := by
  cases m with
  | nil => simpa [Memory.put] using ha
  | cons x m =>
    obtain ⟨c, v⟩ := x
    simp only [List.head?_cons, Option.mem_def, Option.some.injEq, forall_eq'] at hm
    unfold Memory.put
    by_cases h1 : a < c
    · simpa [h1] using ha
    · by_cases h2 : a = c
      · simpa [h1, h2] using hm
      · simpa [h1, h2] using hm

/-- Storing a word keeps the canonical form. -/
theorem Memory.put_wf (m : Memory) (a : Nat) (w : StoredWord) (h : Memory.wf m = true) :
    Memory.wf (Memory.put m a w) = true := by
  induction m with
  | nil => simp [Memory.put, Memory.wf]
  | cons x m ih =>
    obtain ⟨c, v⟩ := x
    rw [Memory.wf_cons] at h
    unfold Memory.put
    by_cases h1 : a < c
    · simp only [h1, if_true]
      rw [Memory.wf_cons]
      refine ⟨by simpa using h1, ?_⟩
      rw [Memory.wf_cons]; exact h
    · by_cases h2 : a = c
      · subst h2
        simp only [h1, if_false, if_true]
        rw [Memory.wf_cons]; exact h
      · simp only [h1, h2, if_false]
        rw [Memory.wf_cons]
        exact ⟨Memory.put_head m a w c (by omega) h.1, ih h.2⟩

/-- What an address holds after a word is stored. -/
theorem Memory.find_put (m : Memory) (a b : Nat) (w : StoredWord) (h : Memory.wf m = true) :
    Memory.find (Memory.put m a w) b = if b = a then some w else Memory.find m b := by
  induction m with
  | nil =>
    by_cases hb : b = a
    · simp [Memory.put, Memory.find, hb]
    · have : ¬ a = b := fun e => hb e.symm
      simp [Memory.put, Memory.find, hb, this]
  | cons x m ih =>
    obtain ⟨c, v⟩ := x
    have hw := (Memory.wf_cons _ _).1 h
    unfold Memory.put
    by_cases h1 : a < c
    · simp only [h1, if_true, Memory.find]
      by_cases hb : b = a
      · simp [hb]
      · have : ¬ a = b := fun e => hb e.symm
        simp [this, hb]
    · by_cases h2 : a = c
      · subst h2
        simp only [h1, if_false, if_true, Memory.find]
        by_cases hb : b = a
        · simp [hb]
        · have : ¬ a = b := fun e => hb e.symm
          simp [this, hb]
      · simp only [h1, h2, if_false, Memory.find]
        by_cases hc : c = b
        · have : b ≠ a := by omega
          simp [hc, this]
        · simp [hc, ih hw.2]

theorem Memory.disturb_wf (epoch : Nat) (m : Memory) (a : Nat) (x : Bits39) (h : Memory.wf m = true) :
    Memory.wf (Memory.disturb epoch m a x) = true := by
  unfold Memory.disturb
  by_cases hx : x = 0
  · rw [if_pos hx]; exact h
  · rw [if_neg hx]; exact Memory.put_wf m a _ h

theorem Memory.writeWord_wf (m : Memory) (a : Nat) (d : Word) (h : Memory.wf m = true) :
    Memory.wf (Memory.writeWord m a d) = true := Memory.put_wf m a _ h

theorem Memory.writePoison_wf (m : Memory) (a : Nat) (h : Memory.wf m = true) :
    Memory.wf (Memory.writePoison m a) = true := Memory.put_wf m a _ h

theorem Memory.writeBoth_wf (m : Memory) (a : Nat) (b : Option Nat) (d : Word) (h : Memory.wf m = true) :
    Memory.wf (Memory.writeBoth m a b d) = true := by
  cases b with
  | none => exact Memory.writeWord_wf m a d h
  | some b => exact Memory.writeWord_wf _ b d (Memory.writeWord_wf m a d h)

theorem Memory.wipeWords_wf (m : Memory) (a n : Nat) (h : Memory.wf m = true) :
    Memory.wf (Memory.wipeWords m a n) = true := by
  induction n generalizing m a with
  | zero => exact h
  | succ n ih => exact ih _ _ (Memory.writeWord_wf m a 0 h)

theorem Memory.verifyWords_wf (epoch : Nat) (m : Memory) (a : Nat) (l : List Bits39)
    (h : Memory.wf m = true) : Memory.wf (Memory.verifyWords epoch m a l).1 = true := by
  induction l generalizing m a with
  | nil => exact h
  | cons c cs ih => exact ih _ _ (Memory.disturb_wf epoch m a c h)

theorem Memory.copyWords_wf (epoch : Nat) (m : Memory) (a b : Nat) (l : List Bits39)
    (h : Memory.wf m = true) : Memory.wf (Memory.copyWords epoch m a b l).1 = true := by
  induction l generalizing m a b with
  | nil => exact h
  | cons c cs ih =>
    have h1 := Memory.disturb_wf epoch m a c h
    unfold Memory.copyWords
    dsimp only
    split
    · exact ih _ _ _ (Memory.writeWord_wf _ b _ h1)
    · exact ih _ _ _ (Memory.writePoison_wf _ b h1)

end Bank

/-! ### The check-bit code -/

/-- The bits of a valid word (R127, R178). -/
theorem getLsbD_validWord (d : Word) (i : Nat) :
    (validWord d).getLsbD i = if i < 32 then d.getLsbD i else (partCode.checkBits d).getLsbD (i - 32) :=
  BitVec.getLsbD_append (x := partCode.checkBits d) (y := d)

@[simp] theorem data_validWord (d : Word) : (validWord d).extractLsb' 0 32 = d := by
  ext i hi
  rw [BitVec.getElem_extractLsb', getLsbD_validWord]; simp [hi]

/-- The data pins of an unchanged valid word show its data, the check pins its check bits (R178). -/
theorem dq_of_valid (d : Word) : dqData ⟨some d, 0⟩ = d ∧ dqCheck ⟨some d, 0⟩ = partCode.checkBits d := by
  have h : dqBits ⟨some d, 0⟩ = validWord d := BitVec.xor_zero
  rw [dqData, dqCheck, h]
  refine ⟨data_validWord d, ?_⟩
  ext i hi
  rw [BitVec.getElem_extractLsb', getLsbD_validWord]; simp [BitVec.getLsbD_eq_getElem hi]

theorem distance_comm (x y : Bits39) : distance x y = distance y x := by
  rw [distance, BitVec.xor_comm, distance]

theorem distance_triangle (x y z : Bits39) : distance x z ≤ distance x y + distance y z := by
  unfold distance bitCount
  induction List.range 39 with
  | nil => simp
  | cons i l ih =>
    simp only [List.countP_cons, BitVec.getLsbD_xor] at ih ⊢
    cases x.getLsbD i <;> cases y.getLsbD i <;> cases z.getLsbD i <;> simp <;> omega

/-- How far a stored word's pattern is from what was written (R128). -/
theorem distance_dqBits (w : StoredWord) :
    distance (dqBits w) (writtenBits w.content) = bitCount w.errors := by
  unfold distance dqBits
  rw [BitVec.xor_comm, ← BitVec.xor_assoc, BitVec.xor_self, BitVec.zero_xor]

/-- Two valid words near one pattern are the same (R127). -/
theorem validWord_near {x : Bits39} {d e : Word} (hd : distance x (validWord d) ≤ 1)
    (he : distance x (validWord e) ≤ 2) : d = e := by
  by_contra h
  have h1 : 4 ≤ distance (validWord d) (validWord e) := partCode.apart d e h
  have h2 := distance_triangle (validWord d) x (validWord e)
  rw [distance_comm (validWord d) x] at h2
  omega

theorem bitCount_twoPow : ∀ i < 39, bitCount (BitVec.twoPow 39 i) = 1 := by decide +kernel

theorem eq_twoPow_of_bitCount {z : Bits39} (h : bitCount z = 1) : ∃ i < 39, z = BitVec.twoPow 39 i := by
  rw [bitCount, List.countP_eq_length_filter, List.length_eq_one_iff] at h
  obtain ⟨i, h⟩ := h
  have hm (j : Nat) : (j < 39 ∧ z.getLsbD j = true) ↔ j = i := by
    rw [← List.mem_singleton (a := j), ← h, List.mem_filter, List.mem_range]
  refine ⟨i, ((hm i).mpr rfl).1, BitVec.eq_of_getLsbD_eq fun j hj => ?_⟩
  rw [BitVec.getLsbD_twoPow, Bool.eq_iff_iff]
  have := hm j
  simp only [Bool.and_eq_true, decide_eq_true_eq]
  constructor
  · intro hz; have := this.mp ⟨hj, hz⟩; omega
  · intro hz; exact (this.mpr hz.2.symm).2

/-- The search for the valid word one bit away finds it (R128). -/
theorem nearValid_eq_some (x : Bits39) (d : Word) : nearValid x = some d ↔ distance x (validWord d) = 1 := by
  have sound : ∀ e, nearValid x = some e → distance x (validWord e) = 1 := by
    intro e h
    obtain ⟨i, hi, h⟩ := List.exists_of_findSome?_eq_some h
    simp only [validAfter, Option.ite_none_right_eq_some, Option.some.injEq] at h
    rw [h.2] at h
    rw [distance, ← h.1, ← BitVec.xor_assoc, BitVec.xor_self, BitVec.zero_xor]
    exact bitCount_twoPow i (List.mem_range.mp hi)
  refine ⟨sound d, fun h => ?_⟩
  obtain ⟨i, hi, hx⟩ := eq_twoPow_of_bitCount h
  have hy : x ^^^ BitVec.twoPow 39 i = validWord d := by
    rw [← hx, ← BitVec.xor_assoc, BitVec.xor_self, BitVec.zero_xor]
  have hs : (nearValid x).isSome := by
    rw [nearValid, List.isSome_findSome?, List.any_eq_true]
    exact ⟨i, List.mem_range.mpr hi, by simp [validAfter, hy]⟩
  obtain ⟨e, he⟩ := Option.isSome_iff_exists.mp hs
  have hde : e = d := validWord_near (x := x) (by rw [sound e he]) (by rw [h]; decide)
  rw [he, hde]

/-! The outcome of a word by the number of its errors (R128). -/

theorem outcomeOf_none_wrong {w : StoredWord} (h : bitCount w.errors = 0) :
    outcomeOf w = match w.content with | some d => .clean d | none => .poisoned := by
  unfold outcomeOf; rw [h]; cases w.content <;> rfl

theorem outcomeOf_one_wrong {w : StoredWord} (h : bitCount w.errors = 1) :
    outcomeOf w = match w.content with | some d => .corrected d | none => .poisoned := by
  unfold outcomeOf; rw [h]; cases w.content <;> rfl

theorem outcomeOf_two_wrong {w : StoredWord} (h : bitCount w.errors = 2) :
    outcomeOf w = match w.content with
      | some _ => if distance (dqBits w) poisonMark ≤ 1 then .poisoned else .uncorrectable
      | none => match nearValid (dqBits w) with
        | some d => .corrected d
        | none => .uncorrectable := by
  unfold outcomeOf; rw [h]; cases w.content <;> rfl

/-- The code of a bus response names it (R174). -/
theorem BusCode.rsp_injective (x y : BusCode) (h : x.rsp = y.rsp) : x = y := by
  cases x <;> cases y <;> first | rfl | exact absurd h (by decide)

end Sys2Proof.Machine
end

