-- ==== Sys2Proof/Laws/Ops.lean ====
section
/-!
SUPPORT. What the shared operations can do: the parts of the state that none of them touches (`State.kept`),
and what a command taken at the Window Directory answers.
-/

namespace Sys2Proof.Machine

section Kept

@[simp] theorem State.kept_updPort (s : State) (p : Port) (f : PortUnit → PortUnit) :
    (s.updPort p f).kept = s.kept := rfl

@[simp] theorem State.kept_mapPorts (s : State) (f : Port → PortUnit → PortUnit) :
    (s.mapPorts f).kept = s.kept := rfl

@[simp] theorem State.kept_updWindow (s : State) (w : WSlot) (f : Window → Window) :
    (s.updWindow w f).kept = s.kept := rfl

@[simp] theorem State.kept_mapWindows (s : State) (f : WSlot → Window → Window) :
    (s.mapWindows f).kept = s.kept := rfl

@[simp] theorem State.kept_updExtent (s : State) (e : Extent) (f : Entry → Entry) :
    (s.updExtent e f).kept = s.kept := rfl

@[simp] theorem State.kept_mapExtents (s : State) (f : Extent → Entry → Entry) :
    (s.mapExtents f).kept = s.kept := rfl

@[simp] theorem State.kept_addAttention (s : State) (p : Port) (k : Kind) :
    (s.addAttention p k).kept = s.kept := rfl

@[simp] theorem State.kept_addAttentionWhere (s : State) (c : Port → Bool) (k : Kind) :
    (s.addAttentionWhere c k).kept = s.kept := rfl

@[simp] theorem State.kept_finish (s : State) (p : Port) (st : Status) (r : Words4) :
    (s.finish p st r).kept = s.kept := rfl

@[simp] theorem State.kept_respond (s : State) (p : Port) (c : BusCode) (d : Option Word) :
    (s.respond p c d).kept = s.kept := rfl

@[simp] theorem State.kept_recordFault (s : State) (p : Port) (k : FaultKind) (a : Word) (b : Bool)
    (h : Option Handle) : (s.recordFault p k a b h).kept = s.kept := by
  unfold State.recordFault; split <;> rfl

@[simp] theorem State.kept_endHoldWait (s : State) (q : Port) : (s.endHoldWait q).kept = s.kept := by
  unfold State.endHoldWait
  split
  · rfl
  · dsimp only; split <;> rfl

@[simp] theorem State.kept_makeDirty (s : State) (l : List Extent) : (s.makeDirty l).kept = s.kept := rfl

@[simp] theorem State.kept_restIf (s : State) (o : DrainOwner) : (s.restIf o).kept = s.kept := by
  unfold State.restIf
  split
  · split <;> rfl
  all_goals rfl

@[simp] theorem State.kept_endDrain (s : State) (w : WSlot) : (s.endDrain w).kept = s.kept := by
  unfold State.endDrain
  dsimp only
  rw [State.kept_restIf, State.kept_updWindow]
  split <;> rfl

@[simp] theorem State.kept_endClearDrain (s : State) : s.endClearDrain.kept = s.kept := by
  unfold State.endClearDrain
  split
  · rfl
  · dsimp only
    split
    · rw [State.kept_finish, State.kept_restIf]; rfl
    · rw [State.kept_restIf]; rfl

@[simp] theorem State.kept_leaveClear (s : State) (m : Member) : (s.leaveClear m).kept = s.kept := by
  unfold State.leaveClear
  split
  · rfl
  · split
    · dsimp only
      split
      · rw [State.kept_endClearDrain]; rfl
      · rfl
    · rfl

@[simp] theorem State.kept_leaveWindow (s : State) (w : WSlot) (m : Member) :
    (s.leaveWindow w m).kept = s.kept := by
  unfold State.leaveWindow
  split
  · dsimp only
    split
    · rw [State.kept_endDrain]; rfl
    · rfl
  · rfl

@[simp] theorem State.kept_leave (s : State) (w : WSlot) (m : Member) : (s.leave w m).kept = s.kept := by
  unfold State.leave; split <;> simp

@[simp] theorem State.kept_loseExtents (s : State) (w : WSlot) (l : List Extent) :
    (s.loseExtents w l).kept = s.kept := by
  unfold State.loseExtents
  dsimp only
  split <;> rfl

@[simp] theorem State.kept_endDrainIfEmpty (s : State) (w : WSlot) :
    (s.endDrainIfEmpty w).kept = s.kept := by
  unfold State.endDrainIfEmpty; split <;> simp

@[simp] theorem State.kept_closeWindow (s : State) (c : Port) (b : Bool) (w : WSlot) :
    (s.closeWindow c b w).kept = s.kept := by
  simp [State.closeWindow]

@[simp] theorem State.kept_startRelocation (s : State) (a b : Extent) :
    (s.startRelocation a b).kept = s.kept := rfl

@[simp] theorem State.kept_rleSettle (s : State) : s.rleSettle.kept = s.kept := by
  unfold State.rleSettle
  repeat' split
  all_goals rfl

@[simp] theorem State.kept_wpeTake (s : State) : s.wpeTake.kept = s.kept := by
  unfold State.wpeTake; split <;> rfl

@[simp] theorem State.kept_grantMemory (s : State) : s.grantMemory.kept = s.kept := by
  unfold State.grantMemory
  split
  · split <;> rfl
  · rfl

@[simp] theorem State.kept_settle (s : State) : s.settle.kept = s.kept := by
  simp [State.settle]

@[simp] theorem State.kept_abortSlot (s : State) (p : Port) : (s.abortSlot p).kept = s.kept := by
  unfold State.abortSlot; dsimp only; split <;> rfl

@[simp] theorem State.kept_resetAccess (s : State) (p : Port) : (s.resetAccess p).kept = s.kept := by
  unfold State.resetAccess; split <;> simp

theorem State.kept_foldl_closeWindow (l : List WSlot) (s : State) (c : Port) :
    (l.foldl (fun t w => t.closeWindow c false w) s).kept = s.kept := by
  induction l generalizing s with
  | nil => rfl
  | cons w l ih => simp [ih]

@[simp] theorem State.kept_closeOwned (s : State) (p c : Port) : (s.closeOwned p c).kept = s.kept :=
  State.kept_foldl_closeWindow (s.closeOrder p) s c

@[simp] theorem State.kept_vacateAgent (s : State) (p c : Port) : (s.vacateAgent p c).kept = s.kept := rfl

@[simp] theorem State.kept_resetPort (s : State) (p c : Port) : (s.resetPort p c).kept = s.kept := by
  simp [State.resetPort]

end Kept

section Taken

/-- A command that is not due changes nothing. -/
theorem State.takeCommand_not_due (s : State) (p : Port) (isCode : BitVec 8 → Bool) (body : State → Verdict)
    (h : ¬ (s.resetn = false ∧ s.nextCaller = some p ∧ isCode (s.port p).slot.code = true)) :
    s.takeCommand p isCode body = .next s := by
  unfold State.takeCommand
  rw [if_neg]
  simp only [Bool.and_eq_true, Bool.not_eq_true', decide_eq_true_eq]
  tauto

/-- A due command answers as its verdict says. -/
theorem State.takeCommand_due (s : State) (p : Port) (isCode : BitVec 8 → Bool) (body : State → Verdict)
    (h1 : s.resetn = false) (h2 : s.nextCaller = some p) (h3 : isCode (s.port p).slot.code = true) :
    s.takeCommand p isCode body =
      match body (s.served p) with
      | .refuse st => .next ((s.served p).finish p st Words4.zero)
      | .finished t res => .next (t.finish p .ok res)
      | .inProgress t =>
        .next (t.updPort p fun u => { u with slot := { u.slot with state := .inProgress } }) := by
  unfold State.takeCommand
  have h : (!s.resetn && decide (s.nextCaller = some p) && isCode (s.port p).slot.code) = true := by
    simp [h1, h2, h3]
  simp only [h, if_true]
  all_goals (cases body (s.served p) <;> rfl)

end Taken

end Sys2Proof.Machine
end

