-- ==== Sys2Proof/Laws/Frames.lean ====
section
/-!
SUPPORT. One lemma for each part of the state that a shared operation leaves alone.
-/

namespace Sys2Proof.Machine

section RecordFault

variable (s : State)

@[simp] theorem State.recordFault_windows (p : Port) (k : FaultKind) (a : Word) (b : Bool) (h : Option Handle) :
    (s.recordFault p k a b h).windows = s.windows := by
  unfold State.recordFault; split <;> rfl
@[simp] theorem State.recordFault_clearRec (p : Port) (k : FaultKind) (a : Word) (b : Bool) (h : Option Handle) :
    (s.recordFault p k a b h).clearRec = s.clearRec := by
  unfold State.recordFault; split <;> rfl
@[simp] theorem State.recordFault_extents (p : Port) (k : FaultKind) (a : Word) (b : Bool) (h : Option Handle) :
    (s.recordFault p k a b h).extents = s.extents := by
  unfold State.recordFault; split <;> rfl
@[simp] theorem State.recordFault_freeList (p : Port) (k : FaultKind) (a : Word) (b : Bool) (h : Option Handle) :
    (s.recordFault p k a b h).freeList = s.freeList := by
  unfold State.recordFault; split <;> rfl
@[simp] theorem State.recordFault_wipeList (p : Port) (k : FaultKind) (a : Word) (b : Bool) (h : Option Handle) :
    (s.recordFault p k a b h).wipeList = s.wipeList := by
  unfold State.recordFault; split <;> rfl
@[simp] theorem State.recordFault_relocList (p : Port) (k : FaultKind) (a : Word) (b : Bool) (h : Option Handle) :
    (s.recordFault p k a b h).relocList = s.relocList := by
  unfold State.recordFault; split <;> rfl
@[simp] theorem State.recordFault_wpe (p : Port) (k : FaultKind) (a : Word) (b : Bool) (h : Option Handle) :
    (s.recordFault p k a b h).wpe = s.wpe := by
  unfold State.recordFault; split <;> rfl
@[simp] theorem State.recordFault_rle (p : Port) (k : FaultKind) (a : Word) (b : Bool) (h : Option Handle) :
    (s.recordFault p k a b h).rle = s.rle := by
  unfold State.recordFault; split <;> rfl
@[simp] theorem State.recordFault_abandonHanded (p : Port) (k : FaultKind) (a : Word) (b : Bool) (h : Option Handle) :
    (s.recordFault p k a b h).abandonHanded = s.abandonHanded := by
  unfold State.recordFault; split <;> rfl
@[simp] theorem State.recordFault_unit (p : Port) (k : FaultKind) (a : Word) (b : Bool) (h : Option Handle) :
    (s.recordFault p k a b h).unit = s.unit := by
  unfold State.recordFault; split <;> rfl
@[simp] theorem State.recordFault_lastGranted (p : Port) (k : FaultKind) (a : Word) (b : Bool) (h : Option Handle) :
    (s.recordFault p k a b h).lastGranted = s.lastGranted := by
  unfold State.recordFault; split <;> rfl
@[simp] theorem State.recordFault_prevGrant (p : Port) (k : FaultKind) (a : Word) (b : Bool) (h : Option Handle) :
    (s.recordFault p k a b h).prevGrant = s.prevGrant := by
  unfold State.recordFault; split <;> rfl
@[simp] theorem State.recordFault_wipeWait (p : Port) (k : FaultKind) (a : Word) (b : Bool) (h : Option Handle) :
    (s.recordFault p k a b h).wipeWait = s.wipeWait := by
  unfold State.recordFault; split <;> rfl
@[simp] theorem State.recordFault_freeIdx (p : Port) (k : FaultKind) (a : Word) (b : Bool) (h : Option Handle) :
    (s.recordFault p k a b h).freeIdx = s.freeIdx := by
  unfold State.recordFault; split <;> rfl
@[simp] theorem State.recordFault_straps (p : Port) (k : FaultKind) (a : Word) (b : Bool) (h : Option Handle) :
    (s.recordFault p k a b h).straps = s.straps := 
  congrArg Kept.straps (State.kept_recordFault s _ _ _ _ _)
@[simp] theorem State.recordFault_resetn (p : Port) (k : FaultKind) (a : Word) (b : Bool) (h : Option Handle) :
    (s.recordFault p k a b h).resetn = s.resetn := 
  congrArg Kept.resetn (State.kept_recordFault s _ _ _ _ _)
@[simp] theorem State.recordFault_threshold (p : Port) (k : FaultKind) (a : Word) (b : Bool) (h : Option Handle) :
    (s.recordFault p k a b h).threshold = s.threshold := 
  congrArg Kept.threshold (State.kept_recordFault s _ _ _ _ _)
@[simp] theorem State.recordFault_mem (p : Port) (k : FaultKind) (a : Word) (b : Bool) (h : Option Handle) :
    (s.recordFault p k a b h).mem = s.mem := 
  congrArg Kept.mem (State.kept_recordFault s _ _ _ _ _)
@[simp] theorem State.recordFault_epoch (p : Port) (k : FaultKind) (a : Word) (b : Bool) (h : Option Handle) :
    (s.recordFault p k a b h).epoch = s.epoch := 
  congrArg Kept.epoch (State.kept_recordFault s _ _ _ _ _)
@[simp] theorem State.recordFault_bankReady (p : Port) (k : FaultKind) (a : Word) (b : Bool) (h : Option Handle) :
    (s.recordFault p k a b h).bankReady = s.bankReady := 
  congrArg Kept.bankReady (State.kept_recordFault s _ _ _ _ _)
@[simp] theorem State.recordFault_accounts (p : Port) (k : FaultKind) (a : Word) (b : Bool) (h : Option Handle) :
    (s.recordFault p k a b h).accounts = s.accounts := 
  congrArg Kept.accounts (State.kept_recordFault s _ _ _ _ _)
@[simp] theorem State.recordFault_lastServed (p : Port) (k : FaultKind) (a : Word) (b : Bool) (h : Option Handle) :
    (s.recordFault p k a b h).lastServed = s.lastServed := 
  congrArg Kept.lastServed (State.kept_recordFault s _ _ _ _ _)
@[simp] theorem State.recordFault_refreshPending (p : Port) (k : FaultKind) (a : Word) (b : Bool) (h : Option Handle) :
    (s.recordFault p k a b h).refreshPending = s.refreshPending := 
  congrArg Kept.refreshPending (State.kept_recordFault s _ _ _ _ _)
@[simp] theorem State.recordFault_pending (p : Port) (k : FaultKind) (a : Word) (b : Bool) (h : Option Handle) :
    (s.recordFault p k a b h).pending = s.pending := 
  congrArg Kept.pending (State.kept_recordFault s _ _ _ _ _)

end RecordFault

section EndHoldWait

variable (s : State)

@[simp] theorem State.endHoldWait_windows (q : Port) : (s.endHoldWait q).windows = s.windows := by
  unfold State.endHoldWait; split
  · rfl
  · dsimp only; split <;> rfl
@[simp] theorem State.endHoldWait_clearRec (q : Port) : (s.endHoldWait q).clearRec = s.clearRec := by
  unfold State.endHoldWait; split
  · rfl
  · dsimp only; split <;> rfl
@[simp] theorem State.endHoldWait_extents (q : Port) : (s.endHoldWait q).extents = s.extents := by
  unfold State.endHoldWait; split
  · rfl
  · dsimp only; split <;> rfl
@[simp] theorem State.endHoldWait_freeList (q : Port) : (s.endHoldWait q).freeList = s.freeList := by
  unfold State.endHoldWait; split
  · rfl
  · dsimp only; split <;> rfl
@[simp] theorem State.endHoldWait_wipeList (q : Port) : (s.endHoldWait q).wipeList = s.wipeList := by
  unfold State.endHoldWait; split
  · rfl
  · dsimp only; split <;> rfl
@[simp] theorem State.endHoldWait_relocList (q : Port) : (s.endHoldWait q).relocList = s.relocList := by
  unfold State.endHoldWait; split
  · rfl
  · dsimp only; split <;> rfl
@[simp] theorem State.endHoldWait_wpe (q : Port) : (s.endHoldWait q).wpe = s.wpe := by
  unfold State.endHoldWait; split
  · rfl
  · dsimp only; split <;> rfl
@[simp] theorem State.endHoldWait_rle (q : Port) : (s.endHoldWait q).rle = s.rle := by
  unfold State.endHoldWait; split
  · rfl
  · dsimp only; split <;> rfl
@[simp] theorem State.endHoldWait_abandonHanded (q : Port) :
    (s.endHoldWait q).abandonHanded = s.abandonHanded := by
  unfold State.endHoldWait; split
  · rfl
  · dsimp only; split <;> rfl
@[simp] theorem State.endHoldWait_unit (q : Port) : (s.endHoldWait q).unit = s.unit := by
  unfold State.endHoldWait; split
  · rfl
  · dsimp only; split <;> rfl
@[simp] theorem State.endHoldWait_lastGranted (q : Port) : (s.endHoldWait q).lastGranted = s.lastGranted := by
  unfold State.endHoldWait; split
  · rfl
  · dsimp only; split <;> rfl
@[simp] theorem State.endHoldWait_prevGrant (q : Port) : (s.endHoldWait q).prevGrant = s.prevGrant := by
  unfold State.endHoldWait; split
  · rfl
  · dsimp only; split <;> rfl
@[simp] theorem State.endHoldWait_wipeWait (q : Port) : (s.endHoldWait q).wipeWait = s.wipeWait := by
  unfold State.endHoldWait; split
  · rfl
  · dsimp only; split <;> rfl
@[simp] theorem State.endHoldWait_freeIdx (q : Port) : (s.endHoldWait q).freeIdx = s.freeIdx := by
  unfold State.endHoldWait; split
  · rfl
  · dsimp only; split <;> rfl
@[simp] theorem State.endHoldWait_straps (q : Port) : (s.endHoldWait q).straps = s.straps := 
  congrArg Kept.straps (State.kept_endHoldWait s _)
@[simp] theorem State.endHoldWait_resetn (q : Port) : (s.endHoldWait q).resetn = s.resetn := 
  congrArg Kept.resetn (State.kept_endHoldWait s _)
@[simp] theorem State.endHoldWait_threshold (q : Port) : (s.endHoldWait q).threshold = s.threshold := 
  congrArg Kept.threshold (State.kept_endHoldWait s _)
@[simp] theorem State.endHoldWait_mem (q : Port) : (s.endHoldWait q).mem = s.mem := 
  congrArg Kept.mem (State.kept_endHoldWait s _)
@[simp] theorem State.endHoldWait_epoch (q : Port) : (s.endHoldWait q).epoch = s.epoch := 
  congrArg Kept.epoch (State.kept_endHoldWait s _)
@[simp] theorem State.endHoldWait_bankReady (q : Port) : (s.endHoldWait q).bankReady = s.bankReady := 
  congrArg Kept.bankReady (State.kept_endHoldWait s _)
@[simp] theorem State.endHoldWait_accounts (q : Port) : (s.endHoldWait q).accounts = s.accounts := 
  congrArg Kept.accounts (State.kept_endHoldWait s _)
@[simp] theorem State.endHoldWait_lastServed (q : Port) : (s.endHoldWait q).lastServed = s.lastServed := 
  congrArg Kept.lastServed (State.kept_endHoldWait s _)
@[simp] theorem State.endHoldWait_refreshPending (q : Port) :
    (s.endHoldWait q).refreshPending = s.refreshPending := 
  congrArg Kept.refreshPending (State.kept_endHoldWait s _)
@[simp] theorem State.endHoldWait_pending (q : Port) : (s.endHoldWait q).pending = s.pending := 
  congrArg Kept.pending (State.kept_endHoldWait s _)

end EndHoldWait

section MakeDirty

variable (s : State)

@[simp] theorem State.makeDirty_ports (l : List Extent) : (s.makeDirty l).ports = s.ports := rfl
@[simp] theorem State.makeDirty_windows (l : List Extent) : (s.makeDirty l).windows = s.windows := rfl
@[simp] theorem State.makeDirty_clearRec (l : List Extent) : (s.makeDirty l).clearRec = s.clearRec := rfl
@[simp] theorem State.makeDirty_freeList (l : List Extent) : (s.makeDirty l).freeList = s.freeList := rfl
@[simp] theorem State.makeDirty_relocList (l : List Extent) : (s.makeDirty l).relocList = s.relocList := rfl
@[simp] theorem State.makeDirty_wpe (l : List Extent) : (s.makeDirty l).wpe = s.wpe := rfl
@[simp] theorem State.makeDirty_rle (l : List Extent) : (s.makeDirty l).rle = s.rle := rfl
@[simp] theorem State.makeDirty_abandonHanded (l : List Extent) :
    (s.makeDirty l).abandonHanded = s.abandonHanded := rfl
@[simp] theorem State.makeDirty_unit (l : List Extent) : (s.makeDirty l).unit = s.unit := rfl
@[simp] theorem State.makeDirty_lastGranted (l : List Extent) :
    (s.makeDirty l).lastGranted = s.lastGranted := rfl
@[simp] theorem State.makeDirty_prevGrant (l : List Extent) : (s.makeDirty l).prevGrant = s.prevGrant := rfl
@[simp] theorem State.makeDirty_wipeWait (l : List Extent) : (s.makeDirty l).wipeWait = s.wipeWait := rfl
@[simp] theorem State.makeDirty_freeIdx (l : List Extent) : (s.makeDirty l).freeIdx = s.freeIdx := rfl
@[simp] theorem State.makeDirty_straps (l : List Extent) : (s.makeDirty l).straps = s.straps := rfl
@[simp] theorem State.makeDirty_resetn (l : List Extent) : (s.makeDirty l).resetn = s.resetn := rfl
@[simp] theorem State.makeDirty_threshold (l : List Extent) : (s.makeDirty l).threshold = s.threshold := rfl
@[simp] theorem State.makeDirty_mem (l : List Extent) : (s.makeDirty l).mem = s.mem := rfl
@[simp] theorem State.makeDirty_epoch (l : List Extent) : (s.makeDirty l).epoch = s.epoch := rfl
@[simp] theorem State.makeDirty_bankReady (l : List Extent) : (s.makeDirty l).bankReady = s.bankReady := rfl
@[simp] theorem State.makeDirty_accounts (l : List Extent) : (s.makeDirty l).accounts = s.accounts := rfl
@[simp] theorem State.makeDirty_lastServed (l : List Extent) :
    (s.makeDirty l).lastServed = s.lastServed := rfl
@[simp] theorem State.makeDirty_refreshPending (l : List Extent) :
    (s.makeDirty l).refreshPending = s.refreshPending := rfl
@[simp] theorem State.makeDirty_pending (l : List Extent) : (s.makeDirty l).pending = s.pending := rfl

end MakeDirty

section RestIf

variable (s : State)

@[simp] theorem State.restIf_ports (o : DrainOwner) : (s.restIf o).ports = s.ports := by
  unfold State.restIf; split
  · split <;> rfl
  all_goals rfl
@[simp] theorem State.restIf_windows (o : DrainOwner) : (s.restIf o).windows = s.windows := by
  unfold State.restIf; split
  · split <;> rfl
  all_goals rfl
@[simp] theorem State.restIf_clearRec (o : DrainOwner) : (s.restIf o).clearRec = s.clearRec := by
  unfold State.restIf; split
  · split <;> rfl
  all_goals rfl
@[simp] theorem State.restIf_extents (o : DrainOwner) : (s.restIf o).extents = s.extents := by
  unfold State.restIf; split
  · split <;> rfl
  all_goals rfl
@[simp] theorem State.restIf_freeList (o : DrainOwner) : (s.restIf o).freeList = s.freeList := by
  unfold State.restIf; split
  · split <;> rfl
  all_goals rfl
@[simp] theorem State.restIf_wipeList (o : DrainOwner) : (s.restIf o).wipeList = s.wipeList := by
  unfold State.restIf; split
  · split <;> rfl
  all_goals rfl
@[simp] theorem State.restIf_relocList (o : DrainOwner) : (s.restIf o).relocList = s.relocList := by
  unfold State.restIf; split
  · split <;> rfl
  all_goals rfl
@[simp] theorem State.restIf_wpe (o : DrainOwner) : (s.restIf o).wpe = s.wpe := by
  unfold State.restIf; split
  · split <;> rfl
  all_goals rfl
@[simp] theorem State.restIf_abandonHanded (o : DrainOwner) :
    (s.restIf o).abandonHanded = s.abandonHanded := by
  unfold State.restIf; split
  · split <;> rfl
  all_goals rfl
@[simp] theorem State.restIf_unit (o : DrainOwner) : (s.restIf o).unit = s.unit := by
  unfold State.restIf; split
  · split <;> rfl
  all_goals rfl
@[simp] theorem State.restIf_lastGranted (o : DrainOwner) : (s.restIf o).lastGranted = s.lastGranted := by
  unfold State.restIf; split
  · split <;> rfl
  all_goals rfl
@[simp] theorem State.restIf_prevGrant (o : DrainOwner) : (s.restIf o).prevGrant = s.prevGrant := by
  unfold State.restIf; split
  · split <;> rfl
  all_goals rfl
@[simp] theorem State.restIf_wipeWait (o : DrainOwner) : (s.restIf o).wipeWait = s.wipeWait := by
  unfold State.restIf; split
  · split <;> rfl
  all_goals rfl
@[simp] theorem State.restIf_freeIdx (o : DrainOwner) : (s.restIf o).freeIdx = s.freeIdx := by
  unfold State.restIf; split
  · split <;> rfl
  all_goals rfl
@[simp] theorem State.restIf_straps (o : DrainOwner) : (s.restIf o).straps = s.straps := 
  congrArg Kept.straps (State.kept_restIf s _)
@[simp] theorem State.restIf_resetn (o : DrainOwner) : (s.restIf o).resetn = s.resetn := 
  congrArg Kept.resetn (State.kept_restIf s _)
@[simp] theorem State.restIf_threshold (o : DrainOwner) : (s.restIf o).threshold = s.threshold := 
  congrArg Kept.threshold (State.kept_restIf s _)
@[simp] theorem State.restIf_mem (o : DrainOwner) : (s.restIf o).mem = s.mem := 
  congrArg Kept.mem (State.kept_restIf s _)
@[simp] theorem State.restIf_epoch (o : DrainOwner) : (s.restIf o).epoch = s.epoch := 
  congrArg Kept.epoch (State.kept_restIf s _)
@[simp] theorem State.restIf_bankReady (o : DrainOwner) : (s.restIf o).bankReady = s.bankReady := 
  congrArg Kept.bankReady (State.kept_restIf s _)
@[simp] theorem State.restIf_accounts (o : DrainOwner) : (s.restIf o).accounts = s.accounts := 
  congrArg Kept.accounts (State.kept_restIf s _)
@[simp] theorem State.restIf_lastServed (o : DrainOwner) : (s.restIf o).lastServed = s.lastServed := 
  congrArg Kept.lastServed (State.kept_restIf s _)
@[simp] theorem State.restIf_refreshPending (o : DrainOwner) :
    (s.restIf o).refreshPending = s.refreshPending := 
  congrArg Kept.refreshPending (State.kept_restIf s _)
@[simp] theorem State.restIf_pending (o : DrainOwner) : (s.restIf o).pending = s.pending := 
  congrArg Kept.pending (State.kept_restIf s _)

end RestIf

section EndDrain

variable (s : State)

@[simp] theorem State.endDrain_clearRec (w : WSlot) : (s.endDrain w).clearRec = s.clearRec := by
  unfold State.endDrain; dsimp only; rw [State.restIf_clearRec]; split <;> rfl
@[simp] theorem State.endDrain_freeList (w : WSlot) : (s.endDrain w).freeList = s.freeList := by
  unfold State.endDrain; dsimp only; rw [State.restIf_freeList]; split <;> rfl
@[simp] theorem State.endDrain_relocList (w : WSlot) : (s.endDrain w).relocList = s.relocList := by
  unfold State.endDrain; dsimp only; rw [State.restIf_relocList]; split <;> rfl
@[simp] theorem State.endDrain_wpe (w : WSlot) : (s.endDrain w).wpe = s.wpe := by
  unfold State.endDrain; dsimp only; rw [State.restIf_wpe]; split <;> rfl
@[simp] theorem State.endDrain_abandonHanded (w : WSlot) :
    (s.endDrain w).abandonHanded = s.abandonHanded := by
  unfold State.endDrain; dsimp only; rw [State.restIf_abandonHanded]; split <;> rfl
@[simp] theorem State.endDrain_unit (w : WSlot) : (s.endDrain w).unit = s.unit := by
  unfold State.endDrain; dsimp only; rw [State.restIf_unit]; split <;> rfl
@[simp] theorem State.endDrain_lastGranted (w : WSlot) : (s.endDrain w).lastGranted = s.lastGranted := by
  unfold State.endDrain; dsimp only; rw [State.restIf_lastGranted]; split <;> rfl
@[simp] theorem State.endDrain_prevGrant (w : WSlot) : (s.endDrain w).prevGrant = s.prevGrant := by
  unfold State.endDrain; dsimp only; rw [State.restIf_prevGrant]; split <;> rfl
@[simp] theorem State.endDrain_wipeWait (w : WSlot) : (s.endDrain w).wipeWait = s.wipeWait := by
  unfold State.endDrain; dsimp only; rw [State.restIf_wipeWait]; split <;> rfl
@[simp] theorem State.endDrain_freeIdx (w : WSlot) : (s.endDrain w).freeIdx = s.freeIdx := by
  unfold State.endDrain; dsimp only; rw [State.restIf_freeIdx]; split <;> rfl
@[simp] theorem State.endDrain_straps (w : WSlot) : (s.endDrain w).straps = s.straps := 
  congrArg Kept.straps (State.kept_endDrain s _)
@[simp] theorem State.endDrain_resetn (w : WSlot) : (s.endDrain w).resetn = s.resetn := 
  congrArg Kept.resetn (State.kept_endDrain s _)
@[simp] theorem State.endDrain_threshold (w : WSlot) : (s.endDrain w).threshold = s.threshold := 
  congrArg Kept.threshold (State.kept_endDrain s _)
@[simp] theorem State.endDrain_mem (w : WSlot) : (s.endDrain w).mem = s.mem := 
  congrArg Kept.mem (State.kept_endDrain s _)
@[simp] theorem State.endDrain_epoch (w : WSlot) : (s.endDrain w).epoch = s.epoch := 
  congrArg Kept.epoch (State.kept_endDrain s _)
@[simp] theorem State.endDrain_bankReady (w : WSlot) : (s.endDrain w).bankReady = s.bankReady := 
  congrArg Kept.bankReady (State.kept_endDrain s _)
@[simp] theorem State.endDrain_accounts (w : WSlot) : (s.endDrain w).accounts = s.accounts := 
  congrArg Kept.accounts (State.kept_endDrain s _)
@[simp] theorem State.endDrain_lastServed (w : WSlot) : (s.endDrain w).lastServed = s.lastServed := 
  congrArg Kept.lastServed (State.kept_endDrain s _)
@[simp] theorem State.endDrain_refreshPending (w : WSlot) :
    (s.endDrain w).refreshPending = s.refreshPending := 
  congrArg Kept.refreshPending (State.kept_endDrain s _)
@[simp] theorem State.endDrain_pending (w : WSlot) : (s.endDrain w).pending = s.pending := 
  congrArg Kept.pending (State.kept_endDrain s _)

end EndDrain

section EndClearDrain

variable (s : State)

@[simp] theorem State.endClearDrain_freeList : (s.endClearDrain).freeList = s.freeList := by
  unfold State.endClearDrain; split
  · rfl
  · dsimp only; split
    · rw [State.finish_freeList, State.restIf_freeList]; rfl
    · rw [State.restIf_freeList]; rfl
@[simp] theorem State.endClearDrain_relocList : (s.endClearDrain).relocList = s.relocList := by
  unfold State.endClearDrain; split
  · rfl
  · dsimp only; split
    · rw [State.finish_relocList, State.restIf_relocList]; rfl
    · rw [State.restIf_relocList]; rfl
@[simp] theorem State.endClearDrain_wpe : (s.endClearDrain).wpe = s.wpe := by
  unfold State.endClearDrain; split
  · rfl
  · dsimp only; split
    · rw [State.finish_wpe, State.restIf_wpe]; rfl
    · rw [State.restIf_wpe]; rfl
@[simp] theorem State.endClearDrain_abandonHanded : (s.endClearDrain).abandonHanded = s.abandonHanded := by
  unfold State.endClearDrain; split
  · rfl
  · dsimp only; split
    · rw [State.finish_abandonHanded, State.restIf_abandonHanded]; rfl
    · rw [State.restIf_abandonHanded]; rfl
@[simp] theorem State.endClearDrain_unit : (s.endClearDrain).unit = s.unit := by
  unfold State.endClearDrain; split
  · rfl
  · dsimp only; split
    · rw [State.finish_unit, State.restIf_unit]; rfl
    · rw [State.restIf_unit]; rfl
@[simp] theorem State.endClearDrain_lastGranted : (s.endClearDrain).lastGranted = s.lastGranted := by
  unfold State.endClearDrain; split
  · rfl
  · dsimp only; split
    · rw [State.finish_lastGranted, State.restIf_lastGranted]; rfl
    · rw [State.restIf_lastGranted]; rfl
@[simp] theorem State.endClearDrain_prevGrant : (s.endClearDrain).prevGrant = s.prevGrant := by
  unfold State.endClearDrain; split
  · rfl
  · dsimp only; split
    · rw [State.finish_prevGrant, State.restIf_prevGrant]; rfl
    · rw [State.restIf_prevGrant]; rfl
@[simp] theorem State.endClearDrain_wipeWait : (s.endClearDrain).wipeWait = s.wipeWait := by
  unfold State.endClearDrain; split
  · rfl
  · dsimp only; split
    · rw [State.finish_wipeWait, State.restIf_wipeWait]; rfl
    · rw [State.restIf_wipeWait]; rfl
@[simp] theorem State.endClearDrain_freeIdx : (s.endClearDrain).freeIdx = s.freeIdx := by
  unfold State.endClearDrain; split
  · rfl
  · dsimp only; split
    · rw [State.finish_freeIdx, State.restIf_freeIdx]; rfl
    · rw [State.restIf_freeIdx]; rfl
@[simp] theorem State.endClearDrain_straps : (s.endClearDrain).straps = s.straps := 
  congrArg Kept.straps (State.kept_endClearDrain s)
@[simp] theorem State.endClearDrain_resetn : (s.endClearDrain).resetn = s.resetn := 
  congrArg Kept.resetn (State.kept_endClearDrain s)
@[simp] theorem State.endClearDrain_threshold : (s.endClearDrain).threshold = s.threshold := 
  congrArg Kept.threshold (State.kept_endClearDrain s)
@[simp] theorem State.endClearDrain_mem : (s.endClearDrain).mem = s.mem := 
  congrArg Kept.mem (State.kept_endClearDrain s)
@[simp] theorem State.endClearDrain_epoch : (s.endClearDrain).epoch = s.epoch := 
  congrArg Kept.epoch (State.kept_endClearDrain s)
@[simp] theorem State.endClearDrain_bankReady : (s.endClearDrain).bankReady = s.bankReady := 
  congrArg Kept.bankReady (State.kept_endClearDrain s)
@[simp] theorem State.endClearDrain_accounts : (s.endClearDrain).accounts = s.accounts := 
  congrArg Kept.accounts (State.kept_endClearDrain s)
@[simp] theorem State.endClearDrain_lastServed : (s.endClearDrain).lastServed = s.lastServed := 
  congrArg Kept.lastServed (State.kept_endClearDrain s)
@[simp] theorem State.endClearDrain_refreshPending : (s.endClearDrain).refreshPending = s.refreshPending := 
  congrArg Kept.refreshPending (State.kept_endClearDrain s)
@[simp] theorem State.endClearDrain_pending : (s.endClearDrain).pending = s.pending := 
  congrArg Kept.pending (State.kept_endClearDrain s)

end EndClearDrain

section LeaveClear

variable (s : State)

@[simp] theorem State.leaveClear_freeList (m : Member) : (s.leaveClear m).freeList = s.freeList := by
  unfold State.leaveClear; split
  · rfl
  · split
    · dsimp only; split
      · rw [State.endClearDrain_freeList]
      · rfl
    · rfl
@[simp] theorem State.leaveClear_relocList (m : Member) : (s.leaveClear m).relocList = s.relocList := by
  unfold State.leaveClear; split
  · rfl
  · split
    · dsimp only; split
      · rw [State.endClearDrain_relocList]
      · rfl
    · rfl
@[simp] theorem State.leaveClear_wpe (m : Member) : (s.leaveClear m).wpe = s.wpe := by
  unfold State.leaveClear; split
  · rfl
  · split
    · dsimp only; split
      · rw [State.endClearDrain_wpe]
      · rfl
    · rfl
@[simp] theorem State.leaveClear_abandonHanded (m : Member) :
    (s.leaveClear m).abandonHanded = s.abandonHanded := by
  unfold State.leaveClear; split
  · rfl
  · split
    · dsimp only; split
      · rw [State.endClearDrain_abandonHanded]
      · rfl
    · rfl
@[simp] theorem State.leaveClear_unit (m : Member) : (s.leaveClear m).unit = s.unit := by
  unfold State.leaveClear; split
  · rfl
  · split
    · dsimp only; split
      · rw [State.endClearDrain_unit]
      · rfl
    · rfl
@[simp] theorem State.leaveClear_lastGranted (m : Member) : (s.leaveClear m).lastGranted = s.lastGranted := by
  unfold State.leaveClear; split
  · rfl
  · split
    · dsimp only; split
      · rw [State.endClearDrain_lastGranted]
      · rfl
    · rfl
@[simp] theorem State.leaveClear_prevGrant (m : Member) : (s.leaveClear m).prevGrant = s.prevGrant := by
  unfold State.leaveClear; split
  · rfl
  · split
    · dsimp only; split
      · rw [State.endClearDrain_prevGrant]
      · rfl
    · rfl
@[simp] theorem State.leaveClear_wipeWait (m : Member) : (s.leaveClear m).wipeWait = s.wipeWait := by
  unfold State.leaveClear; split
  · rfl
  · split
    · dsimp only; split
      · rw [State.endClearDrain_wipeWait]
      · rfl
    · rfl
@[simp] theorem State.leaveClear_freeIdx (m : Member) : (s.leaveClear m).freeIdx = s.freeIdx := by
  unfold State.leaveClear; split
  · rfl
  · split
    · dsimp only; split
      · rw [State.endClearDrain_freeIdx]
      · rfl
    · rfl
@[simp] theorem State.leaveClear_straps (m : Member) : (s.leaveClear m).straps = s.straps := 
  congrArg Kept.straps (State.kept_leaveClear s _)
@[simp] theorem State.leaveClear_resetn (m : Member) : (s.leaveClear m).resetn = s.resetn := 
  congrArg Kept.resetn (State.kept_leaveClear s _)
@[simp] theorem State.leaveClear_threshold (m : Member) : (s.leaveClear m).threshold = s.threshold := 
  congrArg Kept.threshold (State.kept_leaveClear s _)
@[simp] theorem State.leaveClear_mem (m : Member) : (s.leaveClear m).mem = s.mem := 
  congrArg Kept.mem (State.kept_leaveClear s _)
@[simp] theorem State.leaveClear_epoch (m : Member) : (s.leaveClear m).epoch = s.epoch := 
  congrArg Kept.epoch (State.kept_leaveClear s _)
@[simp] theorem State.leaveClear_bankReady (m : Member) : (s.leaveClear m).bankReady = s.bankReady := 
  congrArg Kept.bankReady (State.kept_leaveClear s _)
@[simp] theorem State.leaveClear_accounts (m : Member) : (s.leaveClear m).accounts = s.accounts := 
  congrArg Kept.accounts (State.kept_leaveClear s _)
@[simp] theorem State.leaveClear_lastServed (m : Member) : (s.leaveClear m).lastServed = s.lastServed := 
  congrArg Kept.lastServed (State.kept_leaveClear s _)
@[simp] theorem State.leaveClear_refreshPending (m : Member) :
    (s.leaveClear m).refreshPending = s.refreshPending := 
  congrArg Kept.refreshPending (State.kept_leaveClear s _)
@[simp] theorem State.leaveClear_pending (m : Member) : (s.leaveClear m).pending = s.pending := 
  congrArg Kept.pending (State.kept_leaveClear s _)

end LeaveClear

section LeaveWindow

variable (s : State)

@[simp] theorem State.leaveWindow_clearRec (w : WSlot) (m : Member) :
    (s.leaveWindow w m).clearRec = s.clearRec := by
  unfold State.leaveWindow; split
  · dsimp only; split
    · rw [State.endDrain_clearRec]; rfl
    · rfl
  · rfl
@[simp] theorem State.leaveWindow_freeList (w : WSlot) (m : Member) :
    (s.leaveWindow w m).freeList = s.freeList := by
  unfold State.leaveWindow; split
  · dsimp only; split
    · rw [State.endDrain_freeList]; rfl
    · rfl
  · rfl
@[simp] theorem State.leaveWindow_relocList (w : WSlot) (m : Member) :
    (s.leaveWindow w m).relocList = s.relocList := by
  unfold State.leaveWindow; split
  · dsimp only; split
    · rw [State.endDrain_relocList]; rfl
    · rfl
  · rfl
@[simp] theorem State.leaveWindow_wpe (w : WSlot) (m : Member) : (s.leaveWindow w m).wpe = s.wpe := by
  unfold State.leaveWindow; split
  · dsimp only; split
    · rw [State.endDrain_wpe]; rfl
    · rfl
  · rfl
@[simp] theorem State.leaveWindow_abandonHanded (w : WSlot) (m : Member) :
    (s.leaveWindow w m).abandonHanded = s.abandonHanded := by
  unfold State.leaveWindow; split
  · dsimp only; split
    · rw [State.endDrain_abandonHanded]; rfl
    · rfl
  · rfl
@[simp] theorem State.leaveWindow_unit (w : WSlot) (m : Member) : (s.leaveWindow w m).unit = s.unit := by
  unfold State.leaveWindow; split
  · dsimp only; split
    · rw [State.endDrain_unit]; rfl
    · rfl
  · rfl
@[simp] theorem State.leaveWindow_lastGranted (w : WSlot) (m : Member) :
    (s.leaveWindow w m).lastGranted = s.lastGranted := by
  unfold State.leaveWindow; split
  · dsimp only; split
    · rw [State.endDrain_lastGranted]; rfl
    · rfl
  · rfl
@[simp] theorem State.leaveWindow_prevGrant (w : WSlot) (m : Member) :
    (s.leaveWindow w m).prevGrant = s.prevGrant := by
  unfold State.leaveWindow; split
  · dsimp only; split
    · rw [State.endDrain_prevGrant]; rfl
    · rfl
  · rfl
@[simp] theorem State.leaveWindow_wipeWait (w : WSlot) (m : Member) :
    (s.leaveWindow w m).wipeWait = s.wipeWait := by
  unfold State.leaveWindow; split
  · dsimp only; split
    · rw [State.endDrain_wipeWait]; rfl
    · rfl
  · rfl
@[simp] theorem State.leaveWindow_freeIdx (w : WSlot) (m : Member) :
    (s.leaveWindow w m).freeIdx = s.freeIdx := by
  unfold State.leaveWindow; split
  · dsimp only; split
    · rw [State.endDrain_freeIdx]; rfl
    · rfl
  · rfl
@[simp] theorem State.leaveWindow_straps (w : WSlot) (m : Member) : (s.leaveWindow w m).straps = s.straps := 
  congrArg Kept.straps (State.kept_leaveWindow s _ _)
@[simp] theorem State.leaveWindow_resetn (w : WSlot) (m : Member) : (s.leaveWindow w m).resetn = s.resetn := 
  congrArg Kept.resetn (State.kept_leaveWindow s _ _)
@[simp] theorem State.leaveWindow_threshold (w : WSlot) (m : Member) :
    (s.leaveWindow w m).threshold = s.threshold := 
  congrArg Kept.threshold (State.kept_leaveWindow s _ _)
@[simp] theorem State.leaveWindow_mem (w : WSlot) (m : Member) : (s.leaveWindow w m).mem = s.mem := 
  congrArg Kept.mem (State.kept_leaveWindow s _ _)
@[simp] theorem State.leaveWindow_epoch (w : WSlot) (m : Member) : (s.leaveWindow w m).epoch = s.epoch := 
  congrArg Kept.epoch (State.kept_leaveWindow s _ _)
@[simp] theorem State.leaveWindow_bankReady (w : WSlot) (m : Member) :
    (s.leaveWindow w m).bankReady = s.bankReady := 
  congrArg Kept.bankReady (State.kept_leaveWindow s _ _)
@[simp] theorem State.leaveWindow_accounts (w : WSlot) (m : Member) :
    (s.leaveWindow w m).accounts = s.accounts := 
  congrArg Kept.accounts (State.kept_leaveWindow s _ _)
@[simp] theorem State.leaveWindow_lastServed (w : WSlot) (m : Member) :
    (s.leaveWindow w m).lastServed = s.lastServed := 
  congrArg Kept.lastServed (State.kept_leaveWindow s _ _)
@[simp] theorem State.leaveWindow_refreshPending (w : WSlot) (m : Member) :
    (s.leaveWindow w m).refreshPending = s.refreshPending := 
  congrArg Kept.refreshPending (State.kept_leaveWindow s _ _)
@[simp] theorem State.leaveWindow_pending (w : WSlot) (m : Member) :
    (s.leaveWindow w m).pending = s.pending := 
  congrArg Kept.pending (State.kept_leaveWindow s _ _)

end LeaveWindow

section Leave

variable (s : State)

@[simp] theorem State.leave_freeList (w : WSlot) (m : Member) : (s.leave w m).freeList = s.freeList := by
  unfold State.leave; split <;> simp
@[simp] theorem State.leave_relocList (w : WSlot) (m : Member) : (s.leave w m).relocList = s.relocList := by
  unfold State.leave; split <;> simp
@[simp] theorem State.leave_wpe (w : WSlot) (m : Member) : (s.leave w m).wpe = s.wpe := by
  unfold State.leave; split <;> simp
@[simp] theorem State.leave_abandonHanded (w : WSlot) (m : Member) :
    (s.leave w m).abandonHanded = s.abandonHanded := by
  unfold State.leave; split <;> simp
@[simp] theorem State.leave_unit (w : WSlot) (m : Member) : (s.leave w m).unit = s.unit := by
  unfold State.leave; split <;> simp
@[simp] theorem State.leave_lastGranted (w : WSlot) (m : Member) :
    (s.leave w m).lastGranted = s.lastGranted := by
  unfold State.leave; split <;> simp
@[simp] theorem State.leave_prevGrant (w : WSlot) (m : Member) : (s.leave w m).prevGrant = s.prevGrant := by
  unfold State.leave; split <;> simp
@[simp] theorem State.leave_wipeWait (w : WSlot) (m : Member) : (s.leave w m).wipeWait = s.wipeWait := by
  unfold State.leave; split <;> simp
@[simp] theorem State.leave_freeIdx (w : WSlot) (m : Member) : (s.leave w m).freeIdx = s.freeIdx := by
  unfold State.leave; split <;> simp
@[simp] theorem State.leave_straps (w : WSlot) (m : Member) : (s.leave w m).straps = s.straps := 
  congrArg Kept.straps (State.kept_leave s _ _)
@[simp] theorem State.leave_resetn (w : WSlot) (m : Member) : (s.leave w m).resetn = s.resetn := 
  congrArg Kept.resetn (State.kept_leave s _ _)
@[simp] theorem State.leave_threshold (w : WSlot) (m : Member) : (s.leave w m).threshold = s.threshold := 
  congrArg Kept.threshold (State.kept_leave s _ _)
@[simp] theorem State.leave_mem (w : WSlot) (m : Member) : (s.leave w m).mem = s.mem := 
  congrArg Kept.mem (State.kept_leave s _ _)
@[simp] theorem State.leave_epoch (w : WSlot) (m : Member) : (s.leave w m).epoch = s.epoch := 
  congrArg Kept.epoch (State.kept_leave s _ _)
@[simp] theorem State.leave_bankReady (w : WSlot) (m : Member) : (s.leave w m).bankReady = s.bankReady := 
  congrArg Kept.bankReady (State.kept_leave s _ _)
@[simp] theorem State.leave_accounts (w : WSlot) (m : Member) : (s.leave w m).accounts = s.accounts := 
  congrArg Kept.accounts (State.kept_leave s _ _)
@[simp] theorem State.leave_lastServed (w : WSlot) (m : Member) : (s.leave w m).lastServed = s.lastServed := 
  congrArg Kept.lastServed (State.kept_leave s _ _)
@[simp] theorem State.leave_refreshPending (w : WSlot) (m : Member) :
    (s.leave w m).refreshPending = s.refreshPending := 
  congrArg Kept.refreshPending (State.kept_leave s _ _)
@[simp] theorem State.leave_pending (w : WSlot) (m : Member) : (s.leave w m).pending = s.pending := 
  congrArg Kept.pending (State.kept_leave s _ _)

end Leave

section AbandonRelocation

variable (s : State)

@[simp] theorem State.abandonRelocation_windows (o : DrainOwner) (t : Extent) :
    (s.abandonRelocation o t).windows = s.windows := rfl
@[simp] theorem State.abandonRelocation_clearRec (o : DrainOwner) (t : Extent) :
    (s.abandonRelocation o t).clearRec = s.clearRec := rfl
@[simp] theorem State.abandonRelocation_freeList (o : DrainOwner) (t : Extent) :
    (s.abandonRelocation o t).freeList = s.freeList := rfl
@[simp] theorem State.abandonRelocation_wipeList (o : DrainOwner) (t : Extent) :
    (s.abandonRelocation o t).wipeList = s.wipeList := rfl
@[simp] theorem State.abandonRelocation_relocList (o : DrainOwner) (t : Extent) :
    (s.abandonRelocation o t).relocList = s.relocList := rfl
@[simp] theorem State.abandonRelocation_wpe (o : DrainOwner) (t : Extent) :
    (s.abandonRelocation o t).wpe = s.wpe := rfl
@[simp] theorem State.abandonRelocation_unit (o : DrainOwner) (t : Extent) :
    (s.abandonRelocation o t).unit = s.unit := rfl
@[simp] theorem State.abandonRelocation_lastGranted (o : DrainOwner) (t : Extent) :
    (s.abandonRelocation o t).lastGranted = s.lastGranted := rfl
@[simp] theorem State.abandonRelocation_prevGrant (o : DrainOwner) (t : Extent) :
    (s.abandonRelocation o t).prevGrant = s.prevGrant := rfl
@[simp] theorem State.abandonRelocation_wipeWait (o : DrainOwner) (t : Extent) :
    (s.abandonRelocation o t).wipeWait = s.wipeWait := rfl
@[simp] theorem State.abandonRelocation_freeIdx (o : DrainOwner) (t : Extent) :
    (s.abandonRelocation o t).freeIdx = s.freeIdx := rfl
@[simp] theorem State.abandonRelocation_straps (o : DrainOwner) (t : Extent) :
    (s.abandonRelocation o t).straps = s.straps := rfl
@[simp] theorem State.abandonRelocation_resetn (o : DrainOwner) (t : Extent) :
    (s.abandonRelocation o t).resetn = s.resetn := rfl
@[simp] theorem State.abandonRelocation_threshold (o : DrainOwner) (t : Extent) :
    (s.abandonRelocation o t).threshold = s.threshold := rfl
@[simp] theorem State.abandonRelocation_mem (o : DrainOwner) (t : Extent) :
    (s.abandonRelocation o t).mem = s.mem := rfl
@[simp] theorem State.abandonRelocation_epoch (o : DrainOwner) (t : Extent) :
    (s.abandonRelocation o t).epoch = s.epoch := rfl
@[simp] theorem State.abandonRelocation_bankReady (o : DrainOwner) (t : Extent) :
    (s.abandonRelocation o t).bankReady = s.bankReady := rfl
@[simp] theorem State.abandonRelocation_accounts (o : DrainOwner) (t : Extent) :
    (s.abandonRelocation o t).accounts = s.accounts := rfl
@[simp] theorem State.abandonRelocation_lastServed (o : DrainOwner) (t : Extent) :
    (s.abandonRelocation o t).lastServed = s.lastServed := rfl
@[simp] theorem State.abandonRelocation_refreshPending (o : DrainOwner) (t : Extent) :
    (s.abandonRelocation o t).refreshPending = s.refreshPending := rfl
@[simp] theorem State.abandonRelocation_pending (o : DrainOwner) (t : Extent) :
    (s.abandonRelocation o t).pending = s.pending := rfl

end AbandonRelocation

section LoseExtents

variable (s : State)

@[simp] theorem State.loseExtents_windows (w : WSlot) (l : List Extent) :
    (s.loseExtents w l).windows = s.windows := by
  unfold State.loseExtents; dsimp only; split <;> rfl
@[simp] theorem State.loseExtents_clearRec (w : WSlot) (l : List Extent) :
    (s.loseExtents w l).clearRec = s.clearRec := by
  unfold State.loseExtents; dsimp only; split <;> rfl
@[simp] theorem State.loseExtents_freeList (w : WSlot) (l : List Extent) :
    (s.loseExtents w l).freeList = s.freeList := by
  unfold State.loseExtents; dsimp only; split <;> rfl
@[simp] theorem State.loseExtents_wipeList (w : WSlot) (l : List Extent) :
    (s.loseExtents w l).wipeList = s.wipeList := by
  unfold State.loseExtents; dsimp only; split <;> rfl
@[simp] theorem State.loseExtents_wpe (w : WSlot) (l : List Extent) : (s.loseExtents w l).wpe = s.wpe := by
  unfold State.loseExtents; dsimp only; split <;> rfl
@[simp] theorem State.loseExtents_unit (w : WSlot) (l : List Extent) : (s.loseExtents w l).unit = s.unit := by
  unfold State.loseExtents; dsimp only; split <;> rfl
@[simp] theorem State.loseExtents_lastGranted (w : WSlot) (l : List Extent) :
    (s.loseExtents w l).lastGranted = s.lastGranted := by
  unfold State.loseExtents; dsimp only; split <;> rfl
@[simp] theorem State.loseExtents_prevGrant (w : WSlot) (l : List Extent) :
    (s.loseExtents w l).prevGrant = s.prevGrant := by
  unfold State.loseExtents; dsimp only; split <;> rfl
@[simp] theorem State.loseExtents_wipeWait (w : WSlot) (l : List Extent) :
    (s.loseExtents w l).wipeWait = s.wipeWait := by
  unfold State.loseExtents; dsimp only; split <;> rfl
@[simp] theorem State.loseExtents_freeIdx (w : WSlot) (l : List Extent) :
    (s.loseExtents w l).freeIdx = s.freeIdx := by
  unfold State.loseExtents; dsimp only; split <;> rfl
@[simp] theorem State.loseExtents_straps (w : WSlot) (l : List Extent) :
    (s.loseExtents w l).straps = s.straps := 
  congrArg Kept.straps (State.kept_loseExtents s _ _)
@[simp] theorem State.loseExtents_resetn (w : WSlot) (l : List Extent) :
    (s.loseExtents w l).resetn = s.resetn := 
  congrArg Kept.resetn (State.kept_loseExtents s _ _)
@[simp] theorem State.loseExtents_threshold (w : WSlot) (l : List Extent) :
    (s.loseExtents w l).threshold = s.threshold := 
  congrArg Kept.threshold (State.kept_loseExtents s _ _)
@[simp] theorem State.loseExtents_mem (w : WSlot) (l : List Extent) : (s.loseExtents w l).mem = s.mem := 
  congrArg Kept.mem (State.kept_loseExtents s _ _)
@[simp] theorem State.loseExtents_epoch (w : WSlot) (l : List Extent) :
    (s.loseExtents w l).epoch = s.epoch := 
  congrArg Kept.epoch (State.kept_loseExtents s _ _)
@[simp] theorem State.loseExtents_bankReady (w : WSlot) (l : List Extent) :
    (s.loseExtents w l).bankReady = s.bankReady := 
  congrArg Kept.bankReady (State.kept_loseExtents s _ _)
@[simp] theorem State.loseExtents_accounts (w : WSlot) (l : List Extent) :
    (s.loseExtents w l).accounts = s.accounts := 
  congrArg Kept.accounts (State.kept_loseExtents s _ _)
@[simp] theorem State.loseExtents_lastServed (w : WSlot) (l : List Extent) :
    (s.loseExtents w l).lastServed = s.lastServed := 
  congrArg Kept.lastServed (State.kept_loseExtents s _ _)
@[simp] theorem State.loseExtents_refreshPending (w : WSlot) (l : List Extent) :
    (s.loseExtents w l).refreshPending = s.refreshPending := 
  congrArg Kept.refreshPending (State.kept_loseExtents s _ _)
@[simp] theorem State.loseExtents_pending (w : WSlot) (l : List Extent) :
    (s.loseExtents w l).pending = s.pending := 
  congrArg Kept.pending (State.kept_loseExtents s _ _)

end LoseExtents

section EndDrainIfEmpty

variable (s : State)

@[simp] theorem State.endDrainIfEmpty_clearRec (w : WSlot) : (s.endDrainIfEmpty w).clearRec = s.clearRec := by
  unfold State.endDrainIfEmpty; split <;> simp
@[simp] theorem State.endDrainIfEmpty_freeList (w : WSlot) : (s.endDrainIfEmpty w).freeList = s.freeList := by
  unfold State.endDrainIfEmpty; split <;> simp
@[simp] theorem State.endDrainIfEmpty_relocList (w : WSlot) :
    (s.endDrainIfEmpty w).relocList = s.relocList := by
  unfold State.endDrainIfEmpty; split <;> simp
@[simp] theorem State.endDrainIfEmpty_wpe (w : WSlot) : (s.endDrainIfEmpty w).wpe = s.wpe := by
  unfold State.endDrainIfEmpty; split <;> simp
@[simp] theorem State.endDrainIfEmpty_abandonHanded (w : WSlot) :
    (s.endDrainIfEmpty w).abandonHanded = s.abandonHanded := by
  unfold State.endDrainIfEmpty; split <;> simp
@[simp] theorem State.endDrainIfEmpty_unit (w : WSlot) : (s.endDrainIfEmpty w).unit = s.unit := by
  unfold State.endDrainIfEmpty; split <;> simp
@[simp] theorem State.endDrainIfEmpty_lastGranted (w : WSlot) :
    (s.endDrainIfEmpty w).lastGranted = s.lastGranted := by
  unfold State.endDrainIfEmpty; split <;> simp
@[simp] theorem State.endDrainIfEmpty_prevGrant (w : WSlot) :
    (s.endDrainIfEmpty w).prevGrant = s.prevGrant := by
  unfold State.endDrainIfEmpty; split <;> simp
@[simp] theorem State.endDrainIfEmpty_wipeWait (w : WSlot) : (s.endDrainIfEmpty w).wipeWait = s.wipeWait := by
  unfold State.endDrainIfEmpty; split <;> simp
@[simp] theorem State.endDrainIfEmpty_freeIdx (w : WSlot) : (s.endDrainIfEmpty w).freeIdx = s.freeIdx := by
  unfold State.endDrainIfEmpty; split <;> simp
@[simp] theorem State.endDrainIfEmpty_straps (w : WSlot) : (s.endDrainIfEmpty w).straps = s.straps := 
  congrArg Kept.straps (State.kept_endDrainIfEmpty s _)
@[simp] theorem State.endDrainIfEmpty_resetn (w : WSlot) : (s.endDrainIfEmpty w).resetn = s.resetn := 
  congrArg Kept.resetn (State.kept_endDrainIfEmpty s _)
@[simp] theorem State.endDrainIfEmpty_threshold (w : WSlot) :
    (s.endDrainIfEmpty w).threshold = s.threshold := 
  congrArg Kept.threshold (State.kept_endDrainIfEmpty s _)
@[simp] theorem State.endDrainIfEmpty_mem (w : WSlot) : (s.endDrainIfEmpty w).mem = s.mem := 
  congrArg Kept.mem (State.kept_endDrainIfEmpty s _)
@[simp] theorem State.endDrainIfEmpty_epoch (w : WSlot) : (s.endDrainIfEmpty w).epoch = s.epoch := 
  congrArg Kept.epoch (State.kept_endDrainIfEmpty s _)
@[simp] theorem State.endDrainIfEmpty_bankReady (w : WSlot) :
    (s.endDrainIfEmpty w).bankReady = s.bankReady := 
  congrArg Kept.bankReady (State.kept_endDrainIfEmpty s _)
@[simp] theorem State.endDrainIfEmpty_accounts (w : WSlot) : (s.endDrainIfEmpty w).accounts = s.accounts := 
  congrArg Kept.accounts (State.kept_endDrainIfEmpty s _)
@[simp] theorem State.endDrainIfEmpty_lastServed (w : WSlot) :
    (s.endDrainIfEmpty w).lastServed = s.lastServed := 
  congrArg Kept.lastServed (State.kept_endDrainIfEmpty s _)
@[simp] theorem State.endDrainIfEmpty_refreshPending (w : WSlot) :
    (s.endDrainIfEmpty w).refreshPending = s.refreshPending := 
  congrArg Kept.refreshPending (State.kept_endDrainIfEmpty s _)
@[simp] theorem State.endDrainIfEmpty_pending (w : WSlot) : (s.endDrainIfEmpty w).pending = s.pending := 
  congrArg Kept.pending (State.kept_endDrainIfEmpty s _)

end EndDrainIfEmpty

section CloseWindow

variable (s : State)

@[simp] theorem State.closeWindow_clearRec (c : Port) (b : Bool) (w : WSlot) :
    (s.closeWindow c b w).clearRec = s.clearRec := by
  simp [State.closeWindow]
@[simp] theorem State.closeWindow_freeList (c : Port) (b : Bool) (w : WSlot) :
    (s.closeWindow c b w).freeList = s.freeList := by
  simp [State.closeWindow]
@[simp] theorem State.closeWindow_wpe (c : Port) (b : Bool) (w : WSlot) :
    (s.closeWindow c b w).wpe = s.wpe := by
  simp [State.closeWindow]
@[simp] theorem State.closeWindow_unit (c : Port) (b : Bool) (w : WSlot) :
    (s.closeWindow c b w).unit = s.unit := by
  simp [State.closeWindow]
@[simp] theorem State.closeWindow_lastGranted (c : Port) (b : Bool) (w : WSlot) :
    (s.closeWindow c b w).lastGranted = s.lastGranted := by
  simp [State.closeWindow]
@[simp] theorem State.closeWindow_prevGrant (c : Port) (b : Bool) (w : WSlot) :
    (s.closeWindow c b w).prevGrant = s.prevGrant := by
  simp [State.closeWindow]
@[simp] theorem State.closeWindow_wipeWait (c : Port) (b : Bool) (w : WSlot) :
    (s.closeWindow c b w).wipeWait = s.wipeWait := by
  simp [State.closeWindow]
@[simp] theorem State.closeWindow_freeIdx (c : Port) (b : Bool) (w : WSlot) :
    (s.closeWindow c b w).freeIdx = s.freeIdx := by
  simp [State.closeWindow]
@[simp] theorem State.closeWindow_straps (c : Port) (b : Bool) (w : WSlot) :
    (s.closeWindow c b w).straps = s.straps := 
  congrArg Kept.straps (State.kept_closeWindow s _ _ _)
@[simp] theorem State.closeWindow_resetn (c : Port) (b : Bool) (w : WSlot) :
    (s.closeWindow c b w).resetn = s.resetn := 
  congrArg Kept.resetn (State.kept_closeWindow s _ _ _)
@[simp] theorem State.closeWindow_threshold (c : Port) (b : Bool) (w : WSlot) :
    (s.closeWindow c b w).threshold = s.threshold := 
  congrArg Kept.threshold (State.kept_closeWindow s _ _ _)
@[simp] theorem State.closeWindow_mem (c : Port) (b : Bool) (w : WSlot) :
    (s.closeWindow c b w).mem = s.mem := 
  congrArg Kept.mem (State.kept_closeWindow s _ _ _)
@[simp] theorem State.closeWindow_epoch (c : Port) (b : Bool) (w : WSlot) :
    (s.closeWindow c b w).epoch = s.epoch := 
  congrArg Kept.epoch (State.kept_closeWindow s _ _ _)
@[simp] theorem State.closeWindow_bankReady (c : Port) (b : Bool) (w : WSlot) :
    (s.closeWindow c b w).bankReady = s.bankReady := 
  congrArg Kept.bankReady (State.kept_closeWindow s _ _ _)
@[simp] theorem State.closeWindow_accounts (c : Port) (b : Bool) (w : WSlot) :
    (s.closeWindow c b w).accounts = s.accounts := 
  congrArg Kept.accounts (State.kept_closeWindow s _ _ _)
@[simp] theorem State.closeWindow_lastServed (c : Port) (b : Bool) (w : WSlot) :
    (s.closeWindow c b w).lastServed = s.lastServed := 
  congrArg Kept.lastServed (State.kept_closeWindow s _ _ _)
@[simp] theorem State.closeWindow_refreshPending (c : Port) (b : Bool) (w : WSlot) :
    (s.closeWindow c b w).refreshPending = s.refreshPending := 
  congrArg Kept.refreshPending (State.kept_closeWindow s _ _ _)
@[simp] theorem State.closeWindow_pending (c : Port) (b : Bool) (w : WSlot) :
    (s.closeWindow c b w).pending = s.pending := 
  congrArg Kept.pending (State.kept_closeWindow s _ _ _)

end CloseWindow

section StartRelocation

variable (s : State)

@[simp] theorem State.startRelocation_ports (a b : Extent) : (s.startRelocation a b).ports = s.ports := rfl
@[simp] theorem State.startRelocation_windows (a b : Extent) :
    (s.startRelocation a b).windows = s.windows := rfl
@[simp] theorem State.startRelocation_clearRec (a b : Extent) :
    (s.startRelocation a b).clearRec = s.clearRec := rfl
@[simp] theorem State.startRelocation_wipeList (a b : Extent) :
    (s.startRelocation a b).wipeList = s.wipeList := rfl
@[simp] theorem State.startRelocation_wpe (a b : Extent) : (s.startRelocation a b).wpe = s.wpe := rfl
@[simp] theorem State.startRelocation_abandonHanded (a b : Extent) :
    (s.startRelocation a b).abandonHanded = s.abandonHanded := rfl
@[simp] theorem State.startRelocation_unit (a b : Extent) : (s.startRelocation a b).unit = s.unit := rfl
@[simp] theorem State.startRelocation_lastGranted (a b : Extent) :
    (s.startRelocation a b).lastGranted = s.lastGranted := rfl
@[simp] theorem State.startRelocation_prevGrant (a b : Extent) :
    (s.startRelocation a b).prevGrant = s.prevGrant := rfl
@[simp] theorem State.startRelocation_wipeWait (a b : Extent) :
    (s.startRelocation a b).wipeWait = s.wipeWait := rfl
@[simp] theorem State.startRelocation_freeIdx (a b : Extent) :
    (s.startRelocation a b).freeIdx = s.freeIdx := rfl
@[simp] theorem State.startRelocation_straps (a b : Extent) : (s.startRelocation a b).straps = s.straps := rfl
@[simp] theorem State.startRelocation_resetn (a b : Extent) : (s.startRelocation a b).resetn = s.resetn := rfl
@[simp] theorem State.startRelocation_threshold (a b : Extent) :
    (s.startRelocation a b).threshold = s.threshold := rfl
@[simp] theorem State.startRelocation_mem (a b : Extent) : (s.startRelocation a b).mem = s.mem := rfl
@[simp] theorem State.startRelocation_epoch (a b : Extent) : (s.startRelocation a b).epoch = s.epoch := rfl
@[simp] theorem State.startRelocation_bankReady (a b : Extent) :
    (s.startRelocation a b).bankReady = s.bankReady := rfl
@[simp] theorem State.startRelocation_accounts (a b : Extent) :
    (s.startRelocation a b).accounts = s.accounts := rfl
@[simp] theorem State.startRelocation_lastServed (a b : Extent) :
    (s.startRelocation a b).lastServed = s.lastServed := rfl
@[simp] theorem State.startRelocation_refreshPending (a b : Extent) :
    (s.startRelocation a b).refreshPending = s.refreshPending := rfl
@[simp] theorem State.startRelocation_pending (a b : Extent) :
    (s.startRelocation a b).pending = s.pending := rfl

end StartRelocation

section RleSettle

variable (s : State)

@[simp] theorem State.rleSettle_ports : (s.rleSettle).ports = s.ports := by
  unfold State.rleSettle; repeat' split
  all_goals rfl
@[simp] theorem State.rleSettle_windows : (s.rleSettle).windows = s.windows := by
  unfold State.rleSettle; repeat' split
  all_goals rfl
@[simp] theorem State.rleSettle_clearRec : (s.rleSettle).clearRec = s.clearRec := by
  unfold State.rleSettle; repeat' split
  all_goals rfl
@[simp] theorem State.rleSettle_wipeList : (s.rleSettle).wipeList = s.wipeList := by
  unfold State.rleSettle; repeat' split
  all_goals rfl
@[simp] theorem State.rleSettle_wpe : (s.rleSettle).wpe = s.wpe := by
  unfold State.rleSettle; repeat' split
  all_goals rfl
@[simp] theorem State.rleSettle_abandonHanded : (s.rleSettle).abandonHanded = s.abandonHanded := by
  unfold State.rleSettle; repeat' split
  all_goals rfl
@[simp] theorem State.rleSettle_unit : (s.rleSettle).unit = s.unit := by
  unfold State.rleSettle; repeat' split
  all_goals rfl
@[simp] theorem State.rleSettle_lastGranted : (s.rleSettle).lastGranted = s.lastGranted := by
  unfold State.rleSettle; repeat' split
  all_goals rfl
@[simp] theorem State.rleSettle_prevGrant : (s.rleSettle).prevGrant = s.prevGrant := by
  unfold State.rleSettle; repeat' split
  all_goals rfl
@[simp] theorem State.rleSettle_wipeWait : (s.rleSettle).wipeWait = s.wipeWait := by
  unfold State.rleSettle; repeat' split
  all_goals rfl
@[simp] theorem State.rleSettle_freeIdx : (s.rleSettle).freeIdx = s.freeIdx := by
  unfold State.rleSettle; repeat' split
  all_goals rfl
@[simp] theorem State.rleSettle_straps : (s.rleSettle).straps = s.straps := 
  congrArg Kept.straps (State.kept_rleSettle s)
@[simp] theorem State.rleSettle_resetn : (s.rleSettle).resetn = s.resetn := 
  congrArg Kept.resetn (State.kept_rleSettle s)
@[simp] theorem State.rleSettle_threshold : (s.rleSettle).threshold = s.threshold := 
  congrArg Kept.threshold (State.kept_rleSettle s)
@[simp] theorem State.rleSettle_mem : (s.rleSettle).mem = s.mem := 
  congrArg Kept.mem (State.kept_rleSettle s)
@[simp] theorem State.rleSettle_epoch : (s.rleSettle).epoch = s.epoch := 
  congrArg Kept.epoch (State.kept_rleSettle s)
@[simp] theorem State.rleSettle_bankReady : (s.rleSettle).bankReady = s.bankReady := 
  congrArg Kept.bankReady (State.kept_rleSettle s)
@[simp] theorem State.rleSettle_accounts : (s.rleSettle).accounts = s.accounts := 
  congrArg Kept.accounts (State.kept_rleSettle s)
@[simp] theorem State.rleSettle_lastServed : (s.rleSettle).lastServed = s.lastServed := 
  congrArg Kept.lastServed (State.kept_rleSettle s)
@[simp] theorem State.rleSettle_refreshPending : (s.rleSettle).refreshPending = s.refreshPending := 
  congrArg Kept.refreshPending (State.kept_rleSettle s)
@[simp] theorem State.rleSettle_pending : (s.rleSettle).pending = s.pending := 
  congrArg Kept.pending (State.kept_rleSettle s)

end RleSettle

section WpeTake

variable (s : State)

@[simp] theorem State.wpeTake_ports : (s.wpeTake).ports = s.ports := by
  unfold State.wpeTake; split <;> rfl
@[simp] theorem State.wpeTake_windows : (s.wpeTake).windows = s.windows := by
  unfold State.wpeTake; split <;> rfl
@[simp] theorem State.wpeTake_clearRec : (s.wpeTake).clearRec = s.clearRec := by
  unfold State.wpeTake; split <;> rfl
@[simp] theorem State.wpeTake_freeList : (s.wpeTake).freeList = s.freeList := by
  unfold State.wpeTake; split <;> rfl
@[simp] theorem State.wpeTake_relocList : (s.wpeTake).relocList = s.relocList := by
  unfold State.wpeTake; split <;> rfl
@[simp] theorem State.wpeTake_rle : (s.wpeTake).rle = s.rle := by
  unfold State.wpeTake; split <;> rfl
@[simp] theorem State.wpeTake_abandonHanded : (s.wpeTake).abandonHanded = s.abandonHanded := by
  unfold State.wpeTake; split <;> rfl
@[simp] theorem State.wpeTake_unit : (s.wpeTake).unit = s.unit := by
  unfold State.wpeTake; split <;> rfl
@[simp] theorem State.wpeTake_lastGranted : (s.wpeTake).lastGranted = s.lastGranted := by
  unfold State.wpeTake; split <;> rfl
@[simp] theorem State.wpeTake_prevGrant : (s.wpeTake).prevGrant = s.prevGrant := by
  unfold State.wpeTake; split <;> rfl
@[simp] theorem State.wpeTake_wipeWait : (s.wpeTake).wipeWait = s.wipeWait := by
  unfold State.wpeTake; split <;> rfl
@[simp] theorem State.wpeTake_freeIdx : (s.wpeTake).freeIdx = s.freeIdx := by
  unfold State.wpeTake; split <;> rfl
@[simp] theorem State.wpeTake_straps : (s.wpeTake).straps = s.straps := 
  congrArg Kept.straps (State.kept_wpeTake s)
@[simp] theorem State.wpeTake_resetn : (s.wpeTake).resetn = s.resetn := 
  congrArg Kept.resetn (State.kept_wpeTake s)
@[simp] theorem State.wpeTake_threshold : (s.wpeTake).threshold = s.threshold := 
  congrArg Kept.threshold (State.kept_wpeTake s)
@[simp] theorem State.wpeTake_mem : (s.wpeTake).mem = s.mem := 
  congrArg Kept.mem (State.kept_wpeTake s)
@[simp] theorem State.wpeTake_epoch : (s.wpeTake).epoch = s.epoch := 
  congrArg Kept.epoch (State.kept_wpeTake s)
@[simp] theorem State.wpeTake_bankReady : (s.wpeTake).bankReady = s.bankReady := 
  congrArg Kept.bankReady (State.kept_wpeTake s)
@[simp] theorem State.wpeTake_accounts : (s.wpeTake).accounts = s.accounts := 
  congrArg Kept.accounts (State.kept_wpeTake s)
@[simp] theorem State.wpeTake_lastServed : (s.wpeTake).lastServed = s.lastServed := 
  congrArg Kept.lastServed (State.kept_wpeTake s)
@[simp] theorem State.wpeTake_refreshPending : (s.wpeTake).refreshPending = s.refreshPending := 
  congrArg Kept.refreshPending (State.kept_wpeTake s)
@[simp] theorem State.wpeTake_pending : (s.wpeTake).pending = s.pending := 
  congrArg Kept.pending (State.kept_wpeTake s)

end WpeTake

section GrantMemory

variable (s : State)

@[simp] theorem State.grantMemory_ports : (s.grantMemory).ports = s.ports := by
  unfold State.grantMemory; split
  · split <;> rfl
  · rfl
@[simp] theorem State.grantMemory_windows : (s.grantMemory).windows = s.windows := by
  unfold State.grantMemory; split
  · split <;> rfl
  · rfl
@[simp] theorem State.grantMemory_clearRec : (s.grantMemory).clearRec = s.clearRec := by
  unfold State.grantMemory; split
  · split <;> rfl
  · rfl
@[simp] theorem State.grantMemory_extents : (s.grantMemory).extents = s.extents := by
  unfold State.grantMemory; split
  · split <;> rfl
  · rfl
@[simp] theorem State.grantMemory_freeList : (s.grantMemory).freeList = s.freeList := by
  unfold State.grantMemory; split
  · split <;> rfl
  · rfl
@[simp] theorem State.grantMemory_wipeList : (s.grantMemory).wipeList = s.wipeList := by
  unfold State.grantMemory; split
  · split <;> rfl
  · rfl
@[simp] theorem State.grantMemory_relocList : (s.grantMemory).relocList = s.relocList := by
  unfold State.grantMemory; split
  · split <;> rfl
  · rfl
@[simp] theorem State.grantMemory_wpe : (s.grantMemory).wpe = s.wpe := by
  unfold State.grantMemory; split
  · split <;> rfl
  · rfl
@[simp] theorem State.grantMemory_rle : (s.grantMemory).rle = s.rle := by
  unfold State.grantMemory; split
  · split <;> rfl
  · rfl
@[simp] theorem State.grantMemory_abandonHanded : (s.grantMemory).abandonHanded = s.abandonHanded := by
  unfold State.grantMemory; split
  · split <;> rfl
  · rfl
@[simp] theorem State.grantMemory_freeIdx : (s.grantMemory).freeIdx = s.freeIdx := by
  unfold State.grantMemory; split
  · split <;> rfl
  · rfl
@[simp] theorem State.grantMemory_straps : (s.grantMemory).straps = s.straps := 
  congrArg Kept.straps (State.kept_grantMemory s)
@[simp] theorem State.grantMemory_resetn : (s.grantMemory).resetn = s.resetn := 
  congrArg Kept.resetn (State.kept_grantMemory s)
@[simp] theorem State.grantMemory_threshold : (s.grantMemory).threshold = s.threshold := 
  congrArg Kept.threshold (State.kept_grantMemory s)
@[simp] theorem State.grantMemory_mem : (s.grantMemory).mem = s.mem := 
  congrArg Kept.mem (State.kept_grantMemory s)
@[simp] theorem State.grantMemory_epoch : (s.grantMemory).epoch = s.epoch := 
  congrArg Kept.epoch (State.kept_grantMemory s)
@[simp] theorem State.grantMemory_bankReady : (s.grantMemory).bankReady = s.bankReady := 
  congrArg Kept.bankReady (State.kept_grantMemory s)
@[simp] theorem State.grantMemory_accounts : (s.grantMemory).accounts = s.accounts := 
  congrArg Kept.accounts (State.kept_grantMemory s)
@[simp] theorem State.grantMemory_lastServed : (s.grantMemory).lastServed = s.lastServed := 
  congrArg Kept.lastServed (State.kept_grantMemory s)
@[simp] theorem State.grantMemory_refreshPending : (s.grantMemory).refreshPending = s.refreshPending := 
  congrArg Kept.refreshPending (State.kept_grantMemory s)
@[simp] theorem State.grantMemory_pending : (s.grantMemory).pending = s.pending := 
  congrArg Kept.pending (State.kept_grantMemory s)

end GrantMemory

section Settle

variable (s : State)

@[simp] theorem State.settle_ports : (s.settle).ports = s.ports := by
  simp [State.settle]
@[simp] theorem State.settle_windows : (s.settle).windows = s.windows := by
  simp [State.settle]
@[simp] theorem State.settle_clearRec : (s.settle).clearRec = s.clearRec := by
  simp [State.settle]
@[simp] theorem State.settle_abandonHanded : (s.settle).abandonHanded = s.abandonHanded := by
  simp [State.settle]
@[simp] theorem State.settle_freeIdx : (s.settle).freeIdx = s.freeIdx := by
  simp [State.settle]
@[simp] theorem State.settle_straps : (s.settle).straps = s.straps := 
  congrArg Kept.straps (State.kept_settle s)
@[simp] theorem State.settle_resetn : (s.settle).resetn = s.resetn := 
  congrArg Kept.resetn (State.kept_settle s)
@[simp] theorem State.settle_threshold : (s.settle).threshold = s.threshold := 
  congrArg Kept.threshold (State.kept_settle s)
@[simp] theorem State.settle_mem : (s.settle).mem = s.mem := 
  congrArg Kept.mem (State.kept_settle s)
@[simp] theorem State.settle_epoch : (s.settle).epoch = s.epoch := 
  congrArg Kept.epoch (State.kept_settle s)
@[simp] theorem State.settle_bankReady : (s.settle).bankReady = s.bankReady := 
  congrArg Kept.bankReady (State.kept_settle s)
@[simp] theorem State.settle_accounts : (s.settle).accounts = s.accounts := 
  congrArg Kept.accounts (State.kept_settle s)
@[simp] theorem State.settle_lastServed : (s.settle).lastServed = s.lastServed := 
  congrArg Kept.lastServed (State.kept_settle s)
@[simp] theorem State.settle_refreshPending : (s.settle).refreshPending = s.refreshPending := 
  congrArg Kept.refreshPending (State.kept_settle s)
@[simp] theorem State.settle_pending : (s.settle).pending = s.pending := 
  congrArg Kept.pending (State.kept_settle s)

end Settle

end Sys2Proof.Machine
end

