-- ==== Sys2Proof/Laws/Effects.lean ====
section
/-!
SUPPORT. What the shared operations do to the parts of the state they touch: attention sets, windows, extents
and the engines, read one record at a time.
-/

namespace Sys2Proof.Machine

section Attention

theorem KindSet.has_add (x : KindSet) (k j : Kind) :
    KindSet.has (KindSet.add x k) j = (KindSet.has x j || decide (j = k)) := by
  cases k <;> cases j <;> simp [KindSet.has, KindSet.add, Kind.set, Kind.pos]

theorem KindSet.has_addIf (c : Bool) (x : KindSet) (k j : Kind) :
    KindSet.has (KindSet.addIf c x k) j = (KindSet.has x j || (c && decide (j = k))) := by
  cases c <;> simp [KindSet.addIf, KindSet.has_add]

variable (s : State)

theorem State.port_addAttention (p q : Port) (k : Kind) :
    (s.addAttention p k).port q =
      if q = p then { s.port q with attention := KindSet.add (s.port q).attention k } else s.port q :=
  State.port_updPort s p q _

theorem State.port_addAttentionWhere (c : Port → Bool) (q : Port) (k : Kind) :
    (s.addAttentionWhere c k).port q =
      { s.port q with attention := KindSet.addIf (c q) (s.port q).attention k } :=
  State.port_mapPorts s _ q

theorem State.port_respond (p q : Port) (c : BusCode) (d : Option Word) :
    (s.respond p c d).port q =
      if q = p then { s.port q with response := some ⟨c, d⟩ } else s.port q :=
  State.port_updPort s p q _

/-- A fault in the port's record (R62). -/
theorem State.port_recordFault (p q : Port) (k : FaultKind) (a : Word) (b : Bool) (h : Option Handle) :
    (s.recordFault p k a b h).port q =
      if q = p then
        match (s.port q).fault with
        | none =>
          { s.port q with fault := some ⟨k, a, b, h, false⟩
                          attention := KindSet.add (s.port q).attention .fault }
        | some f => { s.port q with fault := some { f with later := true } }
      else s.port q := by
  unfold State.recordFault
  by_cases hq : q = p
  · subst hq
    split <;> simp [State.port_addAttention, *]
  · split <;> simp [State.port_addAttention, State.port_updPort, hq]

/-- The finish of a command (R68). -/
theorem State.port_finish (p q : Port) (st : Status) (r : Words4) :
    (s.finish p st r).port q =
      if q = p then
        { s.port q with slot := { (s.port q).slot with state := .done st, res := r }
                        attention := KindSet.add (s.port q).attention .done }
      else s.port q := by
  by_cases hq : q = p
  · subst hq; simp [State.finish, State.port_addAttention]
  · simp [State.finish, State.port_addAttention, State.port_updPort, hq]

end Attention

section Extents

variable (s : State)

theorem State.entry_makeDirty (l : List Extent) (e : Extent) :
    (s.makeDirty l).entry e = if e ∈ l then { s.entry e with st := .dirty } else s.entry e :=
  State.entry_mapExtents s _ e

@[simp] theorem State.makeDirty_wipeList (l : List Extent) : (s.makeDirty l).wipeList = s.wipeList ++ l := rfl

theorem State.entry_startRelocation (src tgt e : Extent) :
    (s.startRelocation src tgt).entry e =
      if e = tgt then { (if e = src then (s.entry e).toMoving else s.entry e) with st := .target }
      else if e = src then (s.entry e).toMoving else s.entry e := by
  show ((s.updExtent src Entry.toMoving).updExtent tgt _).entry e = _
  rw [State.entry_updExtent, State.entry_updExtent]

theorem Entry.toMoving_count (x : Entry) : x.toMoving.count = x.count := by
  unfold Entry.toMoving; split <;> rfl

theorem Entry.toMoving_poisoned (x : Entry) : x.toMoving.poisoned = x.poisoned := by
  unfold Entry.toMoving; split <;> rfl

/-- What the engine does at once (R138 to R140): nothing, come to rest, wait, or start with the two heads. -/
theorem State.rleSettle_cases :
    s.rleSettle = s ∨
    ((s.rle = .idle ∨ s.rle = .waiting) ∧ s.relocList = [] ∧ s.rleSettle = { s with rle := .idle }) ∨
    ((s.rle = .idle ∨ s.rle = .waiting) ∧ s.relocList ≠ [] ∧ s.freeList = [] ∧
      s.rleSettle = { s with rle := .waiting }) ∨
    ∃ src rest tgt free, (s.rle = .idle ∨ s.rle = .waiting) ∧ s.relocList = src :: rest ∧
      s.freeList = tgt :: free ∧ s.rleSettle = s.startRelocation src tgt := by
  unfold State.rleSettle
  split
  case h_1 h | h_2 h =>
    split
    · right; left; simp_all
    · right; right; left; simp_all
    · right; right; right; exact ⟨_, _, _, _, by simp_all, ‹_›, ‹_›, rfl⟩
  all_goals exact Or.inl rfl

/-- What the Wipe Engine does at once (R41): nothing, or take the Wipe List head. -/
theorem State.wpeTake_cases :
    s.wpeTake = s ∨ ∃ e rest, s.wpe = .idle ∧ s.bankReady = true ∧ s.wipeList = e :: rest ∧
      s.wpeTake = { s.updExtent e (fun x => { x with st := .wiping }) with
        wipeList := rest, wpe := .writing e 0 } := by
  unfold State.wpeTake
  split
  · exact Or.inr ⟨_, _, ‹_›, ‹_›, ‹_›, rfl⟩
  · exact Or.inl rfl

theorem State.rleSettle_count (e : Extent) :
    (s.rleSettle.entry e).count = (s.entry e).count ∧ (s.rleSettle.entry e).poisoned = (s.entry e).poisoned := by
  rcases s.rleSettle_cases with h | ⟨_, _, h⟩ | ⟨_, _, _, h⟩ | ⟨_, _, _, _, _, _, _, h⟩ <;> rw [h]
  · exact ⟨rfl, rfl⟩
  · exact ⟨rfl, rfl⟩
  · exact ⟨rfl, rfl⟩
  · rw [State.entry_startRelocation]
    constructor <;> (repeat' split) <;> simp [Entry.toMoving_count, Entry.toMoving_poisoned]

theorem State.wpeTake_count (e : Extent) :
    (s.wpeTake.entry e).count = (s.entry e).count ∧ (s.wpeTake.entry e).poisoned = (s.entry e).poisoned := by
  rcases s.wpeTake_cases with h | ⟨_, _, _, _, _, h⟩ <;> rw [h]
  · exact ⟨rfl, rfl⟩
  · show ((s.updExtent _ _).entry e).count = _ ∧ ((s.updExtent _ _).entry e).poisoned = _
    rw [State.entry_updExtent]
    constructor <;> split <;> rfl

theorem State.entry_congr {s t : State} (h : t.extents = s.extents) (e : Extent) : t.entry e = s.entry e := by
  unfold State.entry; rw [h]

theorem State.window_congr {s t : State} (h : t.windows = s.windows) (w : WSlot) : t.window w = s.window w := by
  unfold State.window; rw [h]

theorem State.port_congr {s t : State} (h : t.ports = s.ports) (p : Port) : t.port p = s.port p := by
  unfold State.port; rw [h]

theorem State.settle_count (e : Extent) :
    (s.settle.entry e).count = (s.entry e).count ∧ (s.settle.entry e).poisoned = (s.entry e).poisoned := by
  rw [State.settle, State.entry_congr (State.grantMemory_extents _)]
  exact ⟨(State.wpeTake_count _ e).1.trans (State.rleSettle_count s e).1,
    (State.wpeTake_count _ e).2.trans (State.rleSettle_count s e).2⟩

/-- An extent of the Relocation List is still there, or the engine has started with it. -/
theorem State.settle_mem_relocList {e : Extent} (h : e ∈ s.relocList) :
    e ∈ s.settle.relocList ∨ ∃ tgt, s.settle.rle = .copying e tgt 0 := by
  rw [State.settle]
  simp only [State.grantMemory_relocList, State.wpeTake_relocList, State.grantMemory_rle, State.wpeTake_rle]
  rcases s.rleSettle_cases with h' | ⟨_, _, h'⟩ | ⟨_, _, _, h'⟩ | ⟨src, rest, tgt, _, _, h1, _, h'⟩ <;> rw [h']
  · exact Or.inl h
  · exact Or.inl h
  · exact Or.inl h
  · rw [h1] at h
    rcases List.mem_cons.mp h with rfl | h
    · exact Or.inr ⟨tgt, rfl⟩
    · left; show e ∈ s.relocList.tail; rw [h1]; exact h

theorem State.mem_relocList_settle {e : Extent} (h : e ∈ s.settle.relocList) : e ∈ s.relocList := by
  rw [State.settle] at h
  simp only [State.grantMemory_relocList, State.wpeTake_relocList] at h
  rcases s.rleSettle_cases with h' | ⟨_, _, h'⟩ | ⟨_, _, _, h'⟩ | ⟨_, _, _, _, _, _, _, h'⟩ <;> rw [h'] at h
  · exact h
  · exact h
  · exact h
  · exact List.mem_of_mem_tail h

/-- An extent of the Wipe List is still there, or the Wipe Engine has taken it. -/
theorem State.settle_mem_wipeList {e : Extent} (h : e ∈ s.wipeList) :
    e ∈ s.settle.wipeList ∨ s.settle.wpe = .writing e 0 := by
  rw [State.settle]
  simp only [State.grantMemory_wipeList, State.grantMemory_wpe]
  rcases s.rleSettle.wpeTake_cases with h' | ⟨f, rest, _, _, h1, h'⟩ <;> rw [h']
  · left; simpa using h
  · rw [State.rleSettle_wipeList] at h1
    rw [h1] at h
    rcases List.mem_cons.mp h with rfl | h
    · exact Or.inr rfl
    · exact Or.inl h

/-- Only an engine that is IDLE or WAITING does anything at once. -/
theorem State.settle_rle_of_busy (h1 : s.rle ≠ .idle) (h2 : s.rle ≠ .waiting) : s.settle.rle = s.rle := by
  rw [State.settle]
  simp only [State.grantMemory_rle, State.wpeTake_rle]
  rcases s.rleSettle_cases with h' | ⟨h, _⟩ | ⟨h, _⟩ | ⟨_, _, _, _, h, _⟩
  · rw [h']
  all_goals exact absurd h (by tauto)

end Extents

section Drains

variable (s : State)

theorem State.port_endHoldWait (q p : Port) :
    (s.endHoldWait q).port p =
      match (s.port q).holdWait with
      | .absent => s.port p
      | .present live =>
        let u := if p = q then { s.port p with holdWait := .absent } else s.port p
        if p = s.supervisor ∧ live = true then
          { u with slot := { u.slot with state := .done .ok, res := Words4.zero }
                   attention := KindSet.add u.attention .done }
        else u := by
  cases h : (s.port q).holdWait with
  | absent => simp only [State.endHoldWait, h]
  | present live =>
    have hs : (s.updPort q fun u => { u with holdWait := .absent }).supervisor = s.supervisor := rfl
    cases live
    · simp [State.endHoldWait, h, State.port_updPort]
    · simp only [State.endHoldWait, h, if_true, State.port_finish, hs, State.port_updPort, and_true]

theorem State.window_endDrain (w v : WSlot) :
    (s.endDrain w).window v = if v = w then (s.window v).afterDrain else s.window v := by
  unfold State.endDrain
  dsimp only
  rw [State.window_congr (State.restIf_windows _ _), State.window_updWindow]
  cases (s.window w).owner <;> rfl

theorem State.port_endDrain (w : WSlot) (p : Port) :
    (s.endDrain w).port p =
      if (s.window w).owner = some p then
        { s.port p with attention := KindSet.add (s.port p).attention .drained }
      else s.port p := by
  unfold State.endDrain
  dsimp only
  rw [State.port_congr (State.restIf_ports _ _), State.port_congr (State.updWindow_ports _ _ _)]
  split
  · rename_i o ho
    rw [ho, State.port_addAttention]
    have : (s.makeDirty (s.window w).retiring).port p = s.port p := rfl
    rw [this]
    by_cases hp : p = o
    · subst hp; simp
    · have : ¬ some o = some p := fun h => hp (Option.some.inj h).symm
      simp [hp, this]
  · rename_i ho
    rw [ho]; simp; rfl

theorem State.entry_endDrain (w : WSlot) (e : Extent) :
    (s.endDrain w).entry e =
      if e ∈ (s.window w).retiring then { s.entry e with st := .dirty } else s.entry e := by
  unfold State.endDrain
  dsimp only
  rw [State.entry_congr (State.restIf_extents _ _), State.entry_congr (State.updWindow_extents _ _ _)]
  rw [← State.entry_makeDirty]
  split <;> rfl

theorem State.wipeList_endDrain (w : WSlot) :
    (s.endDrain w).wipeList = s.wipeList ++ (s.window w).retiring := by
  unfold State.endDrain
  dsimp only
  rw [State.restIf_wipeList, State.updWindow_wipeList]
  split <;> rfl

theorem State.rle_endDrain (w : WSlot) : (s.endDrain w).rle = (s.restIf (.window w)).rle := by
  have h : ∀ (t : State) (o : DrainOwner), t.rle = s.rle → (t.restIf o).rle = (s.restIf o).rle := by
    intro t o ht
    unfold State.restIf
    rw [ht]
    split
    · split
      · rfl
      · exact ht
    all_goals exact ht
  unfold State.endDrain
  dsimp only
  apply h
  rw [State.updWindow_rle]
  split <;> rfl

theorem State.restIf_rle_of (o : DrainOwner) (h : ∀ a b c d, s.rle ≠ .abandoning a b c d o) :
    (s.restIf o).rle = s.rle := by
  unfold State.restIf
  split
  · rename_i a b c d x hx
    rw [if_neg]
    rintro rfl
    exact h _ _ _ _ hx
  all_goals rfl

/-- The end of the drain of CLEAR (R173), field by field. -/
theorem State.endClearDrain_eq {c : ClearRecord} (h : s.clearRec = some c) :
    s.endClearDrain.clearRec = none ∧
    (∀ w, s.endClearDrain.window w =
      if w ∈ c.closed then Window.vacantAt ((s.window w).gen + 1) else s.window w) ∧
    (∀ e, s.endClearDrain.entry e =
      if e ∈ c.retiring then { s.entry e with st := .dirty } else s.entry e) ∧
    s.endClearDrain.wipeList = s.wipeList ++ c.retiring ∧
    s.endClearDrain.rle = (s.restIf .clear).rle ∧
    ∀ p, s.endClearDrain.port p =
      if c.slotLive = true ∧ p = s.supervisor then
        { s.port p with
          slot := { (s.port p).slot with
            state := .done .ok, res := Words4.one (numWord c.retiring.length) }
          attention := KindSet.add (s.port p).attention .done }
      else s.port p := by
  have hr : ∀ (t : State) (o : DrainOwner), t.rle = s.rle → (t.restIf o).rle = (s.restIf o).rle := by
    intro t o ht
    unfold State.restIf
    rw [ht]
    split
    · split
      · rfl
      · exact ht
    all_goals exact ht
  have hw : ∀ w, ((s.makeDirty c.retiring).mapWindows fun w x =>
      if w ∈ c.closed then Window.vacantAt (x.gen + 1) else x).window w =
      if w ∈ c.closed then Window.vacantAt ((s.window w).gen + 1) else s.window w := by
    intro w
    rw [State.window_mapWindows]
    rfl
  have he : ∀ e, ((s.makeDirty c.retiring).mapWindows fun w x =>
      if w ∈ c.closed then Window.vacantAt (x.gen + 1) else x).entry e =
      if e ∈ c.retiring then { s.entry e with st := .dirty } else s.entry e :=
    fun e => State.entry_makeDirty s c.retiring e
  cases hl : c.slotLive
  · simp only [State.endClearDrain, h, hl, Bool.false_eq_true, if_false, false_and]
    refine ⟨?_, fun w => ?_, fun e => ?_, ?_, ?_, fun p => ?_⟩
    · rw [State.restIf_clearRec]
    · rw [State.window_congr (State.restIf_windows _ _)]; exact hw w
    · rw [State.entry_congr (State.restIf_extents _ _)]; exact he e
    · rw [State.restIf_wipeList]; rfl
    · exact hr _ _ rfl
    · rw [State.port_congr (State.restIf_ports _ _)]; rfl
  · simp only [State.endClearDrain, h, hl, if_true, true_and]
    refine ⟨?_, fun w => ?_, fun e => ?_, ?_, ?_, fun p => ?_⟩
    · rw [State.finish_clearRec, State.restIf_clearRec]
    · rw [State.window_congr (State.finish_windows _ _ _ _), State.window_congr (State.restIf_windows _ _)]
      exact hw w
    · rw [State.entry_congr (State.finish_extents _ _ _ _), State.entry_congr (State.restIf_extents _ _)]
      exact he e
    · rw [State.finish_wipeList, State.restIf_wipeList]; rfl
    · rw [State.finish_rle]; exact hr _ _ rfl
    · rw [State.port_finish, State.supervisor, State.restIf_straps,
        State.port_congr (State.restIf_ports _ _)]
      rfl

/-- A member leaves the drain of a window that is not under CLEAR (R93, R94). -/
theorem State.leave_window {w : WSlot} (m : Member) (h : s.underClear w = false) :
    s.leave w m = s.leaveWindow w m := by
  unfold State.leave; rw [h]; simp

theorem State.leave_clear {c : ClearRecord} {w : WSlot} (m : Member) (h : s.clearRec = some c)
    (hw : w ∈ c.closed) : s.leave w m = s.leaveClear m := by
  unfold State.leave State.underClear; rw [h]; simp [hw]

theorem State.leaveWindow_absent {w : WSlot} {m : Member} (h : (s.window w).drain.has m = false) :
    s.leaveWindow w m = s := by
  unfold State.leaveWindow; rw [h]; simp

theorem State.leaveWindow_stays {w : WSlot} {m : Member} (h : (s.window w).drain.has m = true)
    (h2 : (s.window w).drain.remove m ≠ DrainSet.empty) :
    s.leaveWindow w m = s.updWindow w fun x => { x with drain := x.drain.remove m } := by
  have : ((s.window w).drain.remove m).isEmpty = false := by
    rw [← Bool.not_eq_true, DrainSet.isEmpty_iff]; exact h2
  unfold State.leaveWindow; rw [if_pos h, this]; simp

theorem State.leaveWindow_ends {w : WSlot} {m : Member} (h : (s.window w).drain.has m = true)
    (h2 : (s.window w).drain.remove m = DrainSet.empty) :
    s.leaveWindow w m = (s.updWindow w fun x => { x with drain := x.drain.remove m }).endDrain w := by
  have : ((s.window w).drain.remove m).isEmpty = true := (DrainSet.isEmpty_iff _).mpr h2
  unfold State.leaveWindow; rw [if_pos h, this]; simp

theorem State.leaveClear_absent {c : ClearRecord} {m : Member} (h : s.clearRec = some c)
    (hm : c.drain.has m = false) : s.leaveClear m = s := by
  simp only [State.leaveClear, h, hm, Bool.false_eq_true, if_false]

theorem State.leaveClear_stays {c : ClearRecord} {m : Member} (h : s.clearRec = some c)
    (hm : c.drain.has m = true) (h2 : c.drain.remove m ≠ DrainSet.empty) :
    s.leaveClear m = { s with clearRec := some { c with drain := c.drain.remove m } } := by
  have : (c.drain.remove m).isEmpty = false := by
    rw [← Bool.not_eq_true, DrainSet.isEmpty_iff]; exact h2
  simp only [State.leaveClear, h, hm, this, Bool.false_eq_true, if_false, if_true]

theorem State.leaveClear_ends {c : ClearRecord} {m : Member} (h : s.clearRec = some c)
    (hm : c.drain.has m = true) (h2 : c.drain.remove m = DrainSet.empty) :
    s.leaveClear m =
      State.endClearDrain { s with clearRec := some { c with drain := c.drain.remove m } } := by
  have : (c.drain.remove m).isEmpty = true := (DrainSet.isEmpty_iff _).mpr h2
  simp only [State.leaveClear, h, hm, this, if_true]

end Drains

section Refresh

variable {s : State}

/-- No grant is made while a refresh is pending (R121, R123). -/
theorem State.grantMemory_of_refreshPending (h : s.refreshPending = true) : s.grantMemory = s := by
  simp [State.grantMemory, State.grantDue, h]

theorem State.settle_of_refreshPending (h : s.refreshPending = true) : s.settle = s.rleSettle.wpeTake :=
  State.grantMemory_of_refreshPending (by simpa using h)

/-- What is left of a pending refresh at a MEMORY_GRANT: one that waits for a unit stays pending (R121). -/
theorem State.endRefresh_eq : s.endRefresh = { s with refreshPending := s.refreshPending && s.unit.isSome } := by
  unfold State.endRefresh
  split <;> rename_i h
  · simp [h]
  · simp [h]; rw [← h]

end Refresh

section Admission

variable (s : State)

/-- What a lookup answers (R19): no view, or what is known of one of the agent's views that covers the offset. -/
theorem State.lookup_cases (p : Port) (off : Nat) :
    s.lookup p off = .noView ∨ ∃ v ∈ s.viewsOf p, s.covers v off = true ∧
      (v.revoked = true ∧ s.lookup p off = .revoked (s.viewAnswer v) ∨
        v.revoked = false ∧ ∃ o e b, s.lookup p off = .active (s.viewAnswer v) o e b) := by
  unfold State.lookup
  cases h : (s.viewsOf p).find? fun v => s.covers v off with
  | none => exact Or.inl rfl
  | some v =>
    have hc := List.find?_some h
    have hm := List.mem_of_find?_eq_some h
    cases hr : v.revoked
    · cases ht : s.translate v off with
      | noView => exact Or.inl (by simp [hr, ht])
      | revoked a => unfold State.translate at ht; split at ht <;> cases ht
      | active a o e b =>
        refine Or.inr ⟨v, hm, hc, Or.inr ⟨hr, o, e, b, ?_⟩⟩
        unfold State.translate at ht
        split at ht <;> cases ht
        simp [State.translate, *]
    · exact Or.inr ⟨v, hm, hc, Or.inl ⟨hr, by simp [hr]⟩⟩

/-- An access keeps everything but its extent, which comes from its window's extent list where the list has its
ordinal, and is the former target otherwise (R55, R147; log 31). -/
theorem State.retranslate_cases (tgt : Extent) (a : AccessRec) :
    ∃ e, s.retranslate tgt a = { a with ext := e } ∧
      ((s.window a.handle.slot).extents[a.ordinal]? = some e ∨
        (s.window a.handle.slot).extents[a.ordinal]? = none ∧ e = tgt) := by
  refine ⟨_, rfl, ?_⟩
  cases (s.window a.handle.slot).extents[a.ordinal]? <;> simp

/-- What an admitted access becomes: ISSUED or STALLED as it is, or ISSUED re-translated where the port has taken
the swap (R53, R142, R147). -/
theorem State.admittedAs_cases (p : Port) (a : AccessRec) :
    s.admittedAs p a = .issued a ∨ (∃ c, s.admittedAs p a = .stalled c a) ∨
      ∃ tgt, s.rle.targetTakenBy p = some tgt ∧ s.admittedAs p a = .issued (s.retranslate tgt a) := by
  unfold State.admittedAs
  split
  · exact Or.inl rfl
  · exact Or.inr (Or.inl ⟨_, rfl⟩)
  · split
    · exact Or.inr (Or.inl ⟨_, rfl⟩)
    · exact Or.inr (Or.inr ⟨_, ‹_›, rfl⟩)

end Admission

end Sys2Proof.Machine
end

