-- ==== Sys2Proof/WellFormed.lean ====
section
/-!
DEFINITION. Which command terms belong to their row. Numbers out of range cannot be written (their types
are bounded); what is left to check is the request that a bus row carries, which must be one the row is
about (R12, R49, R50, R65, R174).
-/

namespace Sys2Proof

/-- Whether a write goes to a control word that has a row of its own whenever it is written: the
attention word, the notice word, fault word 0 (R176). -/
def Request.hasOwnRow (r : Request) : Bool :=
  match r.op with
  | .read => false
  | .write _ => decide (r.imageOffset = 0x24 ∨ r.imageOffset = 0x28 ∨ r.imageOffset = 0x2C)

/-- The command term is one its row is about. -/
def Instr.wellFormed : Instr → Bool
  | .viewSpaceRequest _ r => decide (r.image ≠ 15)
  | .controlImageRefused _ r => decide (r.image = 15) && !r.servedControl
  | .controlWordWrite _ r => r.servedControl && !r.hasOwnRow
  | .resetnRelease _ | .resetnAssert | .arstnAssert _ | .arstnRelease _ => true
  | .attentionWordWrite _ _ | .noticeWordWrite _ _ | .faultRecordClear _ _ | .commandIssue _ _ => true
  | .undefinedCommand _ | .openWindow _ | .grow _ | .shrink _ | .close _ => true
  | .offer _ | .withdraw _ | .accept _ | .decline _ | .revoke _ | .release _ => true
  | .readWindow _ | .readGrant _ | .readView _ | .readOffer _ | .readAccount _ => true
  | .setQuota _ | .setRank _ | .setThreshold _ | .hold _ | .resume _ | .resetPort _ => true
  | .forceClose _ | .migrate _ | .quarantine _ | .restore _ | .readExtent _ | .readPool _ | .clear _ => true
  | .accessCompletion _ _ | .drainEnd _ | .clearDrainEnd | .holdFinish _ | .tick | .offerExpiry _ _ => true
  | .initializationComplete | .refresh | .memoryGrant | .wpeTake | .wipeBlockComplete => true
  | .verifyBlockComplete _ | .relocationStart | .blockCopyComplete _ | .swap | .portSwapTake _ => true
  | .swapAcknowledge _ | .cutoverAnswer _ | .abandonmentTake _ => true

end Sys2Proof
end

