-- ==== Sys2Proof/Tests/Slice0.lean ====
section
/-!
SUPPORT. Tests: the ill-formed terms that the check refuses, what a few commands do on a small state, and for
each statement with hypotheses a state and operands that meet all of them, clause by clause.
-/

namespace Sys2Proof.Test

open Sys2Proof.Machine

set_option Elab.async false

/-! ### Well-formedness -/

/-- A request. -/
def req (op : BusOp) (size : BitVec 2) (addr : Word) : Request := { op := op, size := size, addr := addr }

theorem test_viewSpace_needs_image_below_15 :
    (Instr.viewSpaceRequest 0 (req .read 2 0xF0000000)).wellFormed = false := by decide

theorem test_refused_needs_image_15 :
    (Instr.controlImageRefused 0 (req .read 2 0x00000040)).wellFormed = false := by decide

theorem test_refused_needs_unserved_request :
    (Instr.controlImageRefused 0 (req .read 2 0xF000003C)).wellFormed = false := by decide

theorem test_controlWord_needs_served_request :
    (Instr.controlWordWrite 0 (req (.write 1) 2 0xF0000040)).wellFormed = false := by decide

theorem test_controlWord_leaves_own_rows :
    (Instr.controlWordWrite 0 (req (.write 1) 2 0xF0000024)).wellFormed = false := by decide

theorem test_wellFormed_terms :
    (Instr.viewSpaceRequest 0 (req .read 2 0xE0000000)).wellFormed = true ∧
      (Instr.controlImageRefused 0 (req .read 1 0xF0000000)).wellFormed = true ∧
      (Instr.controlWordWrite 0 (req (.write 1) 2 0xF0000004)).wellFormed = true := by decide

/-! ### States -/

/-- A state with a command waiting in port `p`'s slot. -/
def cmd (s : State) (p : Port) (code : BitVec 8) (a0 a1 a2 a3 : Word) : State :=
  s.updPort p fun u => { u with slot := { state := .waiting, code := code, args := ⟨a0, a1, a2, a3⟩, res := Words4.zero } }

/-- A BOUND extent. -/
def boundTo (w : WSlot) (gen : BitVec 8) (i : Nat) (x : Entry) : Entry :=
  { x with st := .bound { gen := gen, slot := w } i }

/-- Agent AP1 owns the OPEN window in slot 0, generation 0, of extents 3 and 4, at base 0; AP2 has an ACTIVE view
of it, READ, at base 0; AP3 an offer of it with one tick left; extents 5 and 6 are FREE, every other one is
QUARANTINED; the bank is READY. -/
def shared : State :=
  { (((({ State.reset with
            extents := Vector.replicate 1024 { st := .quarantined .supervisor, count := 0, poisoned := false }
          }.updWindow 0 fun _ =>
        { state := .opened, gen := 0, owner := some 1, extents := [3, 4], closedLen := 0,
          grants := #v[.active 1 .readWrite 0, .active 2 .read 0, .offered 3 .read (some 1), .vacant, .vacant,
            .vacant],
          drain := DrainSet.empty, retiring := [] }).updExtent 3 (boundTo 0 0 0)).updExtent 4
      (boundTo 0 0 1)).updExtent 5 fun x => { x with st := .free }).updExtent 6
        (fun x => { x with st := .free }) with
    freeList := [5, 6], wipeList := [], bankReady := true
    accounts := Tab.upd State.reset.accounts 1 fun _ =>
      { windowQuota := 16, extentQuota := 1024, rank := 2 } }

/-- The state in which port `p`'s access is as given. -/
def withAccess (s : State) (p : Port) (a : Access) : State := s.updPort p fun u => { u with access := a }

/-- A read of the word at offset 0 by AP1 through its own view. -/
def readRec : AccessRec :=
  { addr := 0, op := .read, size := .word, handle := ⟨0, 0⟩, ordinal := 0, ext := 3, byteAddr := 0 }

/-- A write of the word, or of the byte, at offset 0 by AP1. -/
def writeRec (size : Size) : AccessRec :=
  { addr := 0, op := .write 0x000000AB, size := size, handle := ⟨0, 0⟩, ordinal := 0, ext := 3, byteAddr := 0 }

/-- The state in which port AP1's access is the unit in progress, its word holding `x`. -/
def inUnit (a : Access) (x : StoredWord) : State :=
  { withAccess shared 1 a with unit := some (.agent 1 none), mem := [(6144, x)] }

/-- The window in slot 0 of `shared` in another state, without views of AP2 and AP3. -/
def closedAs (st : WinState) (g : Grant) : State :=
  shared.updWindow 0 fun x =>
    { x with state := st, extents := [], closedLen := 2,
             grants := #v[.vacant, g, .vacant, .vacant, .vacant, .vacant] }

/-- The window in slot 0 with a drain pending for AP1's access and extent 7 waiting. -/
def draining : State :=
  (withAccess shared 1 (.issued readRec)).updWindow 0 fun x =>
    { x with drain := { ports := PortSet.none.add 1, rle := false }, retiring := [7] }

/-- CLEAR's record. -/
def clearOf (d : DrainSet) : ClearRecord := { drain := d, retiring := [3, 4], closed := [0], slotLive := true }

/-- A CLEAR in progress with the drain set `d`. -/
def clearing (d : DrainSet) : State :=
  { closedAs .draining .vacant with clearRec := some (clearOf d) }

/-- The Relocation Engine copying extent 3 to extent 5. -/
def copying (ptr : Nat) : State :=
  { shared.updExtent 3 (fun x => { x with st := .moving ⟨0, 0⟩ 0 }) with
    rle := .copying 3 5 ptr, unit := some .copy }

/-- The engine in CUTOVER. -/
def cutover (sw : SwapState) : State :=
  { copying 128 with
    unit := none, rle := .cutover 3 5 128 PortSet.all PortSet.all PortSet.none sw }

/-! ### What a few commands do -/

/-- What a state is, where an outcome is a next state. -/
def after (r : Result) : Option State :=
  match r with
  | .next t => some t
  | .fault _ => none
  | .refused _ => none

/-- A field of the state that a command leads to. -/
def seen {α : Type} (r : Result) (f : State → α) : Option α := (after r).map f

theorem test_reset_has_every_extent_dirty :
    (State.reset.entry 1023).st = .dirty ∧ State.reset.wipeList.length = 1024 ∧ State.reset.freeList = [] := by
  decide +kernel

theorem test_initialization_starts_the_first_wipe :
    seen (exec .initializationComplete State.reset) (fun t => (t.wpe, t.unit, (t.entry 0).st)) =
      some (.writing 0 0, some .wipe, .wiping) := by decide +kernel

theorem test_open_takes_the_oldest_free_extents :
    seen (exec (.openWindow 1) (cmd shared 1 0x01 2 0x4000 0 0)) (fun t =>
      ((t.window 1).extents, (t.port 1).slot.res.w0, (t.entry 5).st, t.freeList)) =
      some ([5, 6], 1, .bound ⟨0, 1⟩ 0, []) := by decide +kernel

theorem test_open_overlap :
    seen (exec (.openWindow 1) (cmd shared 1 0x01 1 0x2000 0 0)) (fun t => (t.port 1).slot.state) =
      some (.done .overlap) := by decide +kernel

theorem test_read_is_issued_and_granted :
    seen (exec (.viewSpaceRequest 2 (req .read 2 0x00002004)) shared) (fun t =>
      ((t.port 2).access, t.unit)) =
      some (.issued { addr := 0x2004, op := .read, size := .word, handle := ⟨0, 0⟩, ordinal := 1, ext := 4,
                      byteAddr := 4 }, some (.agent 2 none)) := by decide +kernel

/-- `shared` with a refresh performed at the idle bank. -/
def refreshing : State := { shared with refreshPending := true }

theorem test_request_during_a_refresh_waits :
    seen (exec (.viewSpaceRequest 2 (req .read 2 0x00002004)) refreshing) (fun t =>
      ((t.port 2).access.presented, t.unit, t.refreshPending)) = some (true, none, true) := by decide +kernel

theorem test_completion_before_a_refresh_grants_nothing :
    seen (exec (.accessCompletion 1 0) { withAccess (inUnit (.issued readRec) ⟨some 1, 0⟩) 2 (.issued readRec) with
      refreshPending := true }) (fun t => (t.unit, t.refreshPending)) = some (none, true) := by decide +kernel

theorem test_grant_after_a_refresh :
    seen (exec .memoryGrant (withAccess refreshing 2 (.issued readRec))) (fun t => (t.unit, t.refreshPending)) =
      some (some (.agent 2 none), false) := by decide +kernel

theorem test_write_through_a_read_view_is_denied :
    seen (exec (.viewSpaceRequest 2 (req (.write 1) 2 0x00002004)) shared) (fun t =>
      ((t.port 2).response, ((t.port 2).fault.map fun f => f.kind), (t.port 2).attention)) =
      some (some ⟨.deny, some 0⟩, some .rights, 8) := by decide +kernel

theorem test_single_bit_error_is_corrected_and_counted :
    seen (exec (.accessCompletion 1 4) (inUnit (.issued readRec) ⟨some 0x55, 0⟩)) (fun t =>
      ((t.port 1).response, (t.entry 3).count, t.mem)) =
      some (some ⟨.done, some 0x55⟩, 1, [(6144, ⟨some 0x55, 4⟩)]) := by decide +kernel

theorem test_byte_write_merges :
    seen (exec (.accessCompletion 1 0) (inUnit (.issued (writeRec .byte)) ⟨some 0x11223344, 0⟩)) (fun t =>
      ((t.port 1).response, t.mem)) =
      some (some ⟨.done, none⟩, [(6144, ⟨some 0x112233AB, 0⟩)]) := by decide +kernel

theorem test_poisoned_read_is_derr :
    seen (exec (.accessCompletion 1 0) (inUnit (.issued readRec) ⟨none, 0⟩)) (fun t =>
      ((t.port 1).response, ((t.port 1).fault.map fun f => f.kind))) =
      some (some ⟨.derr, some 0⟩, some .poison) := by decide +kernel

theorem test_close_with_a_grantee_view_is_retiring :
    seen (exec (.close 1) (cmd shared 1 0x04 0 0 0 0)) (fun t =>
      ((t.window 0).state, (t.window 0).grants, (t.port 2).attention, (t.port 3).attention)) =
      some (.retiring, #v[.vacant, .revoked 2 .read 0, .vacant, .vacant, .vacant, .vacant], 2, 1) := by
  decide +kernel

theorem test_abandoned_target_stays_last :
    seen (exec (.close 1) (cmd { draining with rle := .abandoning 9 7 3 false (.window 0) } 1 0x04 0 0 0 0))
      (fun t => (t.window 0).retiring) = some [3, 4, 7] := by decide +kernel

theorem test_tick_ends_the_offer :
    seen (exec .tick shared) (fun t => ((t.window 0).grant 2, (t.port 3).attention, (t.port 1).attention)) =
      some (.vacant, 1, 4) := by decide +kernel

theorem test_completion_ends_the_drain :
    seen (exec (.accessCompletion 1 0) { draining with unit := some (.agent 1 none), mem := [(6144, ⟨some 1, 0⟩)] })
      (fun t => ((t.window 0).drain, (t.window 0).retiring, t.wpe, KindSet.has (t.port 1).attention .drained)) =
      some (DrainSet.empty, [], .writing 7 0, true) := by decide +kernel

theorem test_swap_replaces_the_extent :
    seen (exec .swap (cutover .requested)) (fun t =>
      ((t.window 0).extents, (t.entry 3).st, (t.entry 5).st, (t.port 0).attention)) =
      some ([5, 4], .quarantined .relocated, .bound ⟨0, 0⟩ 0, 384) := by decide +kernel

theorem test_swap_take_translates_by_the_extent_list :
    seen (exec (.portSwapTake 1) (withAccess ((cutover (.taken PortSet.all PortSet.all)).updWindow 0 fun x =>
        { x with extents := [5, 4] }) 1 (.stalled .cutover readRec))) (fun t => (t.port 1).access) =
      some (.issued { readRec with ext := 5 }) := by decide +kernel

theorem test_rebound_source_after_the_swap_take_is_issued :
    seen (exec (.viewSpaceRequest 1 (req .read 2 0)) (cutover (.taken PortSet.all PortSet.none)))
      (fun t => (t.port 1).access) = some (.issued readRec) := by decide +kernel

theorem test_reset_of_the_owner_closes_its_window :
    seen (exec (.arstnAssert 1) shared) (fun t =>
      ((t.window 0).state, t.wipeList, t.wpe, (t.port 2).attention, (t.port 3).attention)) =
      some (.retiring, [4], .writing 3 0, 2, 1) := by decide +kernel

theorem test_response_codes :
    ((shared.denied 1 (req .read 2 0) .align none).responseLines 1,
      (shared.turnedAway 1).responseLines 1) = (some (2, some 0), some (1, some 0)) := by decide +kernel

theorem test_clear_with_nothing_in_flight :
    seen (exec (.clear 0) (cmd shared 0 0x4F 0 0 0 0)) (fun t =>
      ((t.window 0).state, (t.window 0).gen, (t.port 0).slot.res.w0, t.wpe)) =
      some (.vacant, 1, 2, .writing 3 0) := by decide +kernel

theorem test_readPool_shows_the_lists :
    seen (exec (.readPool 0) (cmd (copying 7) 0 0x4B 0 0 0 0)) (fun t =>
      ((t.port 0).slot.res.w0, (t.port 0).slot.res.w2, (t.port 0).slot.res.w3)) =
      some (2, 2 + 3 * 16 + 5 * 16384, 7) := by decide +kernel

/-! ### The hypotheses of the statements are met: requests, windows, grants -/

theorem witness_EmptyQueueLeavesState : State.reset.pending = [] := rfl

/-- `shared` with RESETn asserted. -/
def underResetn : State := { shared with resetn := true }

theorem witness_AssertAbandonsWork : State.reset.resetn = false ∧ underResetn.resetn = true := ⟨rfl, rfl⟩

/-- The view of AP2 with its slot REVOKED. -/
def revokedView : State := shared.updWindow 0 fun x => x.setGrant 1 (.revoked 2 .read 0)

theorem witness_ViewRequestRefusedInOrder :
    (shared.canArrive 2 = true ∧ (req .read 2 0x2).image ≠ 15 ∧ (req .read 2 0x2).misaligned = true) ∧
    ((shared.setHold 2).canArrive 2 = true ∧ ((shared.setHold 2).port 2).hold = true ∧
      (req .read 2 0xE0000000).misaligned = false ∧ (req .read 2 0xE0000000).image ≠ 15) ∧
    ((withAccess shared 2 (.orphaned readRec)).canArrive 2 = true ∧
      ((withAccess shared 2 (.orphaned readRec)).port 2).access.isOrphaned = true) ∧
    (shared.lookup 2 0x4000 = .noView ∧ (shared.port 2).access = .idle) ∧
    (revokedView.canArrive 2 = true ∧ revokedView.lookup 2 0x3FFF = .revoked ⟨⟨0, 0⟩, 1, .read, 0⟩) ∧
    (shared.lookup 2 0 = .active ⟨⟨0, 0⟩, 1, .read, 0⟩ 0 3 0 ∧ (req (.write 1) 2 0).op ≠ .read) := by decide +kernel

theorem witness_ViewRequestAdmitted :
    shared.canArrive 1 = true ∧ (req (.write 1) 0 0x3FFF).image ≠ 15 ∧
      (req (.write 1) 0 0x3FFF).misaligned = false ∧ (shared.port 1).hold = false ∧
      (shared.port 1).access = .idle ∧ shared.lookup 1 0x3FFF = .active ⟨⟨0, 0⟩, 0, .readWrite, 0⟩ 1 4 0x1FFF := by
  decide +kernel

theorem witness_ControlImageRefusal :
    shared.canArrive 1 = true ∧ (req .read 2 0xF0000040).image = 15 ∧
      0x3F < (req .read 2 0xF0000040).imageOffset ∧ (req .read 0 0xF000003F).imageOffset ≤ 0x3F ∧
      (req .read 0 0xF000003F).alignedWord = false := by decide +kernel

theorem witness_PortWordWrites : shared.canArrive 1 = true := by decide +kernel

theorem witness_ControlWordWriteEffects :
    (cmd shared 1 1 0 0 0 0).canArrive 1 = true ∧ ((cmd shared 1 1 0 0 0 0).port 1).slot.Busy ∧
      ¬ (shared.port 1).slot.Busy ∧
      (∀ k ∈ [(0 : Nat), 4, 0x10, 0x14, 0x20, 0x30, 0x3C],
        (Request.controlWrite k 7).servedControl = true ∧ (Request.controlWrite k 7).imageOffset = k) := by
  decide +kernel

theorem witness_ControlWordReads :
    shared.canArrive 1 = true ∧ (shared.port 1).fault = none ∧
      ((shared.recordFault 1 .rights 4 true none).port 1).fault = some ⟨.rights, 4, true, none, false⟩ ∧
      (∀ k ∈ [(0 : Nat), 4, 0x10, 0x14, 0x20, 0x24, 0x28, 0x2C, 0x30, 0x34, 0x3C],
        (Request.controlRead k).servedControl = true ∧ (Request.controlRead k).imageOffset = k) := by
  decide +kernel

theorem witness_IssueMakesCommandWait :
    ¬ (shared.port 1).slot.Busy ∧ ((cmd shared 1 1 0 0 0 0).port 1).slot.Busy := by decide +kernel

theorem witness_UndefinedCodeRefused :
    State.Due (cmd shared 1 0x4C 0 0 0 0) 1 0x4C ∧ (0x4C : BitVec 8) ∉ commandCodes := by decide +kernel

theorem witness_OpenRefusedAtFirstFailingCheck :
    State.Due (cmd shared 1 0x01 129 0x4000 0 0) 1 0x01 ∧
      (cmd shared 1 0x01 129 0x4000 0 0).openStatus 1 129 0x4000 = .badRange ∧
      (cmd shared 1 0x01 3 0x4000 0 0).openStatus 1 3 0x4000 = .noSpace := by decide +kernel

theorem witness_OpenCreatesWindow :
    State.Due (cmd shared 1 0x01 2 0x0FFFC000 0 0) 1 0x01 ∧
      (cmd shared 1 0x01 2 0x0FFFC000 0 0).openStatus 1 2 0x0FFFC000 = .ok := by decide +kernel

theorem witness_GrowAppendsExtents :
    (State.Due (cmd shared 1 0x02 0x80 1 0 0) 1 0x02 ∧ validHandle (cmd shared 1 0x02 0x80 1 0 0) 0x80 = none) ∧
    (State.Due (cmd shared 1 0x02 0 128 0 0) 1 0x02 ∧ validHandle (cmd shared 1 0x02 0 128 0 0) 0 = some 0 ∧
      ((cmd shared 1 0x02 0 128 0 0).args 1).w1.toNat = 128) ∧
    (State.Due (cmd shared 1 0x02 0 2 0 0) 1 0x02 ∧ validHandle (cmd shared 1 0x02 0 2 0 0) 0 = some 0) := by
  decide +kernel

theorem test_shared_grow_passes :
    seen (exec (.grow 1) (cmd shared 1 0x02 0 2 0 0)) (fun t => (t.port 1).slot.state) = some (.done .ok) ∧
      seen (exec (.grow 1) (cmd shared 1 0x02 0 128 0 0)) (fun t => (t.port 1).slot.state) =
        some (.done .badRange) := by decide +kernel

theorem witness_ShrinkRemovesHighestOrdinals :
    (State.Due (cmd shared 1 0x03 0 1 0 0) 1 0x03 ∧ validHandle (cmd shared 1 0x03 0 1 0 0) 0 = some 0 ∧
      (shared.window 0).owner = some 1 ∧ (shared.window 0).state = .opened ∧
      (shared.window 0).drain = DrainSet.empty ∧ 1 < (shared.window 0).extents.length ∧
      State.Waiting (cmd shared 1 0x03 0 1 0 0) 0) ∧
    (State.Due (cmd shared 1 0x03 0 2 0 0) 1 0x03 ∧ ¬ 2 < (shared.window 0).extents.length) ∧
    (State.Due (cmd draining 1 0x03 0 1 0 0) 1 0x03 ∧ validHandle (cmd draining 1 0x03 0 1 0 0) 0 = some 0 ∧
      (draining.window 0).owner = some 1 ∧ (draining.window 0).drain ≠ DrainSet.empty) ∧
    (State.Due (cmd shared 2 0x03 0 1 0 0) 2 0x03 ∧ (shared.window 0).owner ≠ some 2) := by decide +kernel

theorem witness_CloseEndsWindow :
    (State.Due (cmd shared 1 0x04 0 0 0 0) 1 0x04 ∧ validHandle (cmd shared 1 0x04 0 0 0 0) 0 = some 0 ∧
      (shared.window 0).owner = some 1 ∧ (shared.window 0).state = .opened ∧
      State.Waiting (cmd shared 1 0x04 0 0 0 0) 0) ∧
    (State.Due (cmd shared 1 0x04 1 0 0 0) 1 0x04 ∧ validHandle (cmd shared 1 0x04 1 0 0 0) 1 = none) ∧
    (State.Due (cmd shared 2 0x04 0 0 0 0) 2 0x04 ∧ (shared.window 0).owner ≠ some 2) ∧
    (State.Due (cmd (clearing DrainSet.empty) 1 0x04 0 0 0 0) 1 0x04 ∧
      validHandle (cmd (clearing DrainSet.empty) 1 0x04 0 0 0 0) 0 = some 0 ∧
      ((clearing DrainSet.empty).window 0).state ≠ .opened) := by decide +kernel

theorem witness_ForceCloseEndsWindow :
    shared.supervisor = 0 ∧ State.Due (cmd shared 0 0x46 0 0 0 0) 0 0x46 ∧
      validHandle (cmd shared 0 0x46 0 0 0 0) 0 = some 0 ∧ (shared.window 0).owner = some 1 ∧
      State.Waiting (cmd shared 0 0x46 0 0 0 0) 0 ∧
      validHandle (cmd shared 0 0x46 127 0 0 0) 127 = none := by decide +kernel

theorem witness_OfferInvitesAgent :
    (State.Due (cmd shared 1 0x10 0 5 1 255) 1 0x10 ∧ validHandle (cmd shared 1 0x10 0 5 1 255) 0 = some 0 ∧
      (cmd shared 1 0x10 0 5 1 255).offerStatus 1 0 5 1 255 = .ok ∧ (shared.window 0).grant 3 = .vacant ∧
      (∀ j, j ≠ 0 → j < 3 → (shared.window 0).grant j ≠ .vacant)) ∧
    (cmd shared 1 0x10 0 6 1 255).offerStatus 1 0 6 1 255 = .badRange ∧
    (cmd shared 1 0x10 0 5 1 256).offerStatus 1 0 5 1 256 = .badRange ∧
    (cmd shared 1 0x10 0 3 0 0).offerStatus 1 0 3 0 0 = .duplicate := by decide +kernel

/-- The grant slots of the window in slot 0 of `shared`. -/
theorem shared_grants : (shared.window 0).grants =
    #v[.active 1 .readWrite 0, .active 2 .read 0, .offered 3 .read (some 1), .vacant, .vacant, .vacant] := by
  decide +kernel

/-- No agent has two slots in it. -/
theorem shared_oneSlotEach : (shared.window 0).OneSlotEach := by
  unfold Window.OneSlotEach; decide +kernel

/-- A state with a command waiting has the same window there. -/
theorem cmd_window (s : State) (p : Port) (c : BitVec 8) (a b d e : Word) (w : WSlot) :
    (cmd s p c a b d e).window w = s.window w := rfl

theorem no_offer_to (a : Port) (h : a ≠ 3) :
    ∀ k r n, (shared.window 0).grant k ≠ .offered a r n := by
  intro k r n
  unfold Window.grant
  rw [shared_grants]
  fin_cases k <;> simp [Tab.get]
  all_goals tauto

theorem no_active_of (a : Port) (h1 : a ≠ 1) (h2 : a ≠ 2) :
    ∀ k r b, (shared.window 0).grant k ≠ .active a r b := by
  intro k r b
  unfold Window.grant
  rw [shared_grants]
  fin_cases k <;> simp [Tab.get]
  all_goals tauto

theorem witness_WithdrawEndsOffer :
    ((cmd shared 1 0x11 0 3 0 0).window 0).OneSlotEach ∧
      (∀ k r n, ((cmd shared 1 0x11 0 5 0 0).window 0).grant k ≠ .offered 5 r n) ∧
      State.Due (cmd shared 1 0x11 0 3 0 0) 1 0x11 ∧ validHandle (cmd shared 1 0x11 0 3 0 0) 0 = some 0 ∧
      ((cmd shared 1 0x11 0 3 0 0).window 0).grant 2 = .offered 3 .read (some 1) ∧
      State.Due (cmd shared 1 0x11 0 6 0 0) 1 0x11 ∧ State.Due (cmd shared 2 0x11 0 3 0 0) 2 0x11 :=
  ⟨shared_oneSlotEach, no_offer_to 5 (by decide), by decide +kernel⟩

theorem witness_AcceptMakesView :
    ((cmd shared 3 0x12 0 0x0FFFC000 0 0).window 0).OneSlotEach ∧
    (∀ k r n, ((cmd shared 2 0x12 0 0 0 0).window 0).grant k ≠ .offered 2 r n) ∧
    (State.Due (cmd shared 3 0x12 0 0x0FFFC000 0 0) 3 0x12 ∧
      validHandle (cmd shared 3 0x12 0 0x0FFFC000 0 0) 0 = some 0 ∧
      0x0FFFC000 % shared.extentBytes = 0 ∧
      ((cmd shared 3 0x12 0 0x0FFFC000 0 0).window 0).grant 2 = .offered 3 .read (some 1) ∧
      shared.viewsHeld 3 < 16 ∧ 0x0FFFC000 + 2 * shared.extentBytes - 1 ≤ 0x0FFFFFFF ∧
      shared.viewsOf 3 = [] ∧ (shared.window 0).owner = some 1) ∧
    0x0FFFFFFF < 0x0FFFE000 + 2 * shared.extentBytes - 1 :=
  ⟨shared_oneSlotEach, no_offer_to 2 (by decide), by decide +kernel⟩

theorem witness_DeclineVacatesOffer :
    ((cmd shared 3 0x13 0 0 0 0).window 0).OneSlotEach ∧
      (∀ k r n, ((cmd shared 2 0x13 0 0 0 0).window 0).grant k ≠ .offered 2 r n) ∧
      State.Due (cmd shared 3 0x13 0 0 0 0) 3 0x13 ∧ validHandle (cmd shared 3 0x13 0 0 0 0) 0 = some 0 ∧
      (shared.window 0).owner = some 1 ∧ (shared.window 0).grant 2 = .offered 3 .read (some 1) :=
  ⟨shared_oneSlotEach, no_offer_to 2 (by decide), by decide +kernel⟩

theorem witness_RevokeEndsAccess :
    ((cmd shared 0 0x14 0 2 0 0).window 0).OneSlotEach ∧
      (∀ k r b, ((cmd shared 1 0x14 0 3 0 0).window 0).grant k ≠ .active 3 r b) ∧
      State.Due (cmd shared 0 0x14 0 2 0 0) 0 0x14 ∧ validHandle (cmd shared 0 0x14 0 2 0 0) 0 = some 0 ∧
      (shared.window 0).owner = some 1 ∧ (shared.window 0).state = .opened ∧ shared.supervisor = 0 ∧
      (shared.window 0).grant 1 = .active 2 .read 0 ∧
      State.Due (cmd shared 1 0x14 0 2 0 0) 1 0x14 ∧ State.Due (cmd shared 3 0x14 0 2 0 0) 3 0x14 :=
  ⟨shared_oneSlotEach, no_active_of 3 (by decide) (by decide), by decide +kernel⟩

/-- The window in slot 0 RETIRING with the one REVOKED view of AP2. -/
def retiring : State := closedAs .retiring (.revoked 2 .read 0)

theorem witness_ReleaseGivesViewBack :
    ((cmd shared 2 0x15 0 0 0 0).window 0).OneSlotEach ∧
    (State.Due (cmd shared 2 0x15 0 0 0 0) 2 0x15 ∧ validHandle (cmd shared 2 0x15 0 0 0 0) 0 = some 0 ∧
      (shared.window 0).owner = some 1 ∧ ((shared.window 0).grant 1).isOf 2 = true ∧
      ((shared.window 0).grant 1).isView = true ∧ (shared.window 0).state = .opened) ∧
    (State.Due (cmd retiring 2 0x15 0 0 0 0) 2 0x15 ∧ validHandle (cmd retiring 2 0x15 0 0 0 0) 0 = some 0 ∧
      ((retiring.window 0).grant 1).isOf 2 = true ∧ (retiring.window 0).state = .retiring ∧
      (∀ j, j ≠ 1 → ((retiring.window 0).grant j).isView = false)) ∧
    (State.Due (cmd shared 4 0x15 0 0 0 0) 4 0x15 ∧ (∀ k, ((shared.window 0).grant k).isOf 4 = false)) ∧
    (State.Due (cmd shared 3 0x15 0 0 0 0) 3 0x15 ∧ ((shared.window 0).grant 2).isOf 3 = true ∧
      ((shared.window 0).grant 2).isView = false) :=
  ⟨shared_oneSlotEach, by decide +kernel⟩

/-! ### The hypotheses of the statements are met: reads and supervision -/

theorem witness_ReadWindowShowsRecord :
    (State.Due (cmd shared 1 0x20 0 0 0 0) 1 0x20 ∧ validHandle (cmd shared 1 0x20 0 0 0 0) 0 = some 0 ∧
      State.PartyOrSupervisor shared 1 0 ∧ shared.underClear 0 = false ∧
      (shared.window 0).retiring.length < 2048 ∧ (shared.window 0).extents.length ≤ 128) ∧
    (State.Due (cmd (clearing DrainSet.empty) 0 0x20 0 0 0 0) 0 0x20 ∧
      validHandle (cmd (clearing DrainSet.empty) 0 0x20 0 0 0 0) 0 = some 0 ∧
      (clearing DrainSet.empty).underClear 0 = true) ∧
    (State.Due (cmd shared 4 0x20 0 0 0 0) 4 0x20 ∧ ¬ State.PartyOrSupervisor shared 4 0) := by decide +kernel

theorem witness_ReadGrantShowsSlot :
    State.Due (cmd shared 3 0x21 0 5 0 0) 3 0x21 ∧ validHandle (cmd shared 3 0x21 0 5 0 0) 0 = some 0 ∧
      ((cmd shared 3 0x21 0 5 0 0).args 3).w1.toNat = (5 : GSlot).val ∧ State.PartyOrSupervisor shared 3 0 ∧
      State.Due (cmd shared 3 0x21 0 6 0 0) 3 0x21 ∧ ¬ State.PartyOrSupervisor shared 4 0 := by decide +kernel

theorem witness_ReadViewByBase :
    (State.Due (cmd shared 1 0x22 0 0 0 0) 1 0x22 ∧ shared.viewsHeld 1 = 1 ∧
      ((shared.viewsOf 1).map View.base).Nodup ∧
      shared.viewsOf 1 = [⟨0, 0, false, .readWrite, 0, 2⟩]) ∧
    (State.Due (cmd shared 1 0x22 1 0 0 0) 1 0x22 ∧ shared.viewsHeld 1 ≤ 1) := by decide +kernel

theorem witness_ReadOfferBySlot :
    State.Due (cmd shared 3 0x23 0 0 0 0) 3 0x23 ∧ (shared.offersTo 3)[0]? = some (0, 2) ∧
      (shared.window 0).grant 2 = .offered 3 .read (some 1) ∧ (shared.window 0).state = .opened ∧
      State.Due (cmd shared 3 0x23 1 0 0 0) 3 0x23 ∧ (shared.offersTo 3).length ≤ 1 := by decide +kernel

theorem witness_ReadAccountShowsUsage :
    State.Due (cmd shared 1 0x24 0 0 0 0) 1 0x24 ∧ (shared.account 1).windowQuota ≤ 16 ∧
      (shared.account 1).extentQuota ≤ 1024 ∧ shared.ownedWindows 1 ≤ 16 ∧ shared.viewsHeld 1 ≤ 16 ∧
      shared.ownedExtents 1 ≤ 1024 ∧ shared.freeList.length ≤ 1024 := by decide +kernel

theorem witness_SupervisorCommandsNeedPrivilege :
    (1 : Port) ≠ shared.supervisor ∧
      [(0x40 : BitVec 8), 0x41, 0x42, 0x43, 0x44, 0x45, 0x46, 0x47, 0x48, 0x49, 0x4A, 0x4B, 0x4F].all
        (fun c => decide (State.Due (cmd shared 1 c 0 0 0 0) 1 c)) = true := by decide +kernel

theorem witness_RefusedCommandChangesOnlySlot :
    State.Due (cmd shared 2 0x04 0 0 0 0) 2 0x04 ∧
      seen (exec (.close 2) (cmd shared 2 0x04 0 0 0 0)) (fun t => (t.port 2).slot.state) =
        some (.done .noRight) := by decide +kernel

theorem witness_QuotaAndRankAreSet :
    shared.supervisor = 0 ∧ State.Due (cmd shared 0 0x40 5 16 1024 0) 0 0x40 ∧
      State.Due (cmd shared 0 0x40 5 17 0 0) 0 0x40 ∧ State.Due (cmd shared 0 0x41 5 3 0 0) 0 0x41 ∧
      State.Due (cmd shared 0 0x41 6 3 0 0) 0 0x41 := by decide +kernel

theorem witness_ThresholdIsSet :
    shared.supervisor = 0 ∧ State.Due (cmd shared 0 0x42 0 0 0 0) 0 0x42 ∧
      State.Due (cmd shared 0 0x42 1 0 0 0) 0 0x42 ∧ State.Due (cmd shared 0 0x42 15 0 0 0) 0 0x42 ∧
      State.Due (cmd shared 0 0x42 16 0 0 0) 0 0x42 := by decide +kernel

theorem witness_HoldStopsPort :
    shared.supervisor = 0 ∧ State.Due (cmd shared 0 0x43 6 0 0 0) 0 0x43 ∧
      State.Due (cmd shared 0 0x43 5 0 0 0) 0 0x43 ∧ (shared.port 5).hold = false ∧
      (shared.port 5).access = .idle ∧ ((shared.setHold 5).port 5).hold = true ∧
      State.Due (cmd (shared.setHold 5) 0 0x43 5 0 0 0) 0 0x43 ∧
      State.Due (cmd (withAccess shared 5 (.issued readRec)) 0 0x43 5 0 0 0) 0 0x43 ∧
      ((withAccess shared 5 (.issued readRec)).port 5).access ≠ .idle := by decide +kernel

theorem witness_ResumeLiftsHold :
    shared.supervisor = 0 ∧ State.Due (cmd shared 0 0x44 6 0 0 0) 0 0x44 ∧
      State.Due (cmd (shared.setHold 5) 0 0x44 5 0 0 0) 0 0x44 ∧ ((shared.setHold 5).port 5).hold = true ∧
      State.Due (cmd shared 0 0x44 5 0 0 0) 0 0x44 ∧ (shared.port 5).holdWait = .absent := by decide +kernel

theorem free_6 : (shared.entry 6).st = .free := by decide +kernel

theorem witness_MigrateListsExtent :
    (∀ h i, ((cmd shared 0 0x47 6 0 0 0).entry 6).st ≠ .bound h i) ∧
      shared.supervisor = 0 ∧ State.Due (cmd shared 0 0x47 1024 0 0 0) 0 0x47 ∧
      State.Due (cmd shared 0 0x47 4 0 0 0) 0 0x47 ∧ (shared.entry 4).st = .bound ⟨0, 0⟩ 1 ∧
      4 ∉ shared.relocList ∧ 4 ∈ (shared.listForRelocation 4).relocList ∧
      State.Due (cmd (shared.listForRelocation 4) 0 0x47 4 0 0 0) 0 0x47 :=
  ⟨fun _ _ => ne_of_eq_of_ne free_6 (by simp), by decide +kernel⟩

theorem witness_QuarantineAndRestore :
    (∀ c, ((cmd shared 0 0x49 6 0 0 0).entry 6).st ≠ .quarantined c) ∧
      shared.supervisor = 0 ∧ State.Due (cmd shared 0 0x48 1024 0 0 0) 0 0x48 ∧
      State.Due (cmd shared 0 0x48 6 0 0 0) 0 0x48 ∧ (State.reset.entry 1023).st = .dirty ∧
      State.Due (cmd shared 0 0x48 3 0 0 0) 0 0x48 ∧ (shared.entry 3).st ≠ .free ∧
      (shared.entry 3).st ≠ .dirty ∧ State.Due (cmd shared 0 0x49 1023 0 0 0) 0 0x49 ∧
      (shared.entry 1023).st = .quarantined .supervisor :=
  ⟨fun _ => ne_of_eq_of_ne free_6 (by simp), by decide +kernel⟩

theorem witness_ReadExtentShowsEntry :
    shared.supervisor = 0 ∧ State.Due (cmd shared 0 0x4A 1024 0 0 0) 0 0x4A ∧
      State.Due (cmd shared 0 0x4A 4 0 0 0) 0 0x4A ∧ (shared.entry 4).count ≤ 15 ∧ shared.threshold ≤ 15 ∧
      (shared.entry 4).st.place = some (⟨0, 0⟩, 1) ∧ (shared.entry 6).st.place = none := by decide +kernel

theorem witness_ReadPoolShowsFigures :
    shared.supervisor = 0 ∧ State.Due (cmd shared 0 0x4B 0 0 0 0) 0 0x4B ∧ shared.freeList.length ≤ 1024 ∧
      shared.wipeList.length ≤ 1024 ∧ shared.relocList.length ≤ 1024 ∧ shared.rle.relocation = none ∧
      shared.wpe = .idle ∧ (cutover .requested).rle.relocation = some (3, 5, 128) := by decide +kernel

/-! ### The hypotheses of the statements are met: CLEAR, completions, engines -/

theorem witness_ClearEndsEveryWindow :
    shared.supervisor = 0 ∧ State.Due (cmd shared 0 0x4F 0 0 0 0) 0 0x4F ∧
      (cmd shared 0 0x4F 0 0 0 0).clearDrain.isEmpty = true ∧
      State.Due (cmd draining 0 0x4F 0 0 0 0) 0 0x4F ∧
      (cmd draining 0 0x4F 0 0 0 0).JoinsClear 1 := by decide +kernel

theorem accessInUnit_of (a : Access) (b : AccessRec) (live : Bool) (x : StoredWord)
    (h : a = if live then .issued b else .orphaned b) : (inUnit a x).AccessInUnit 1 b none live := by
  refine ⟨rfl, rfl, rfl, ?_⟩
  rw [← h]
  exact congrArg PortUnit.access (Tab.get_upd_self shared.ports 1 fun u => { u with access := a })

/-- Words at the ends of the range of errors for which R128's table gives the outcome. -/
theorem witness_ReadsAs : bitCount (0 : Bits39) ≤ 2 ∧ bitCount (0x4000000001 : Bits39) = 2 := by decide +kernel

theorem witness_ReadCompletionAnswers :
    (inUnit (.issued readRec) ⟨some 1, 0⟩).AccessInUnit 1 readRec none true ∧
      (inUnit (.orphaned readRec) ⟨some 1, 0⟩).AccessInUnit 1 readRec none false ∧ readRec.op = .read :=
  ⟨accessInUnit_of _ _ true _ rfl, accessInUnit_of _ _ false _ rfl, rfl⟩

theorem witness_WriteCompletionStores :
    (inUnit (.issued (writeRec .word)) ⟨some 1, 0⟩).AccessInUnit 1 (writeRec .word) none true ∧
      (inUnit (.orphaned (writeRec .byte)) ⟨some 1, 0⟩).AccessInUnit 1 (writeRec .byte) none false ∧
      (writeRec .word).op = .write 0xAB ∧ (writeRec .byte).size ≠ .word :=
  ⟨accessInUnit_of _ _ true _ rfl, accessInUnit_of _ _ false _ rfl, rfl, by decide⟩

/-- A hold wait on AP5, whose access is IDLE. -/
def holdWaiting : State := shared.updPort 5 fun u => { u with holdWait := .present true }

theorem witness_DrainsAndHoldWaitsEnd :
    (retiring.resetn = false ∧ ((closedAs .draining (.revoked 2 .read 0)).window 0).drain = DrainSet.empty ∧
      (closedAs .draining (.revoked 2 .read 0)).underClear 0 = false ∧
      ((closedAs .draining (.revoked 2 .read 0)).window 0).state = .draining ∧
      ((closedAs .draining (.revoked 2 .read 0)).window 0).owner = some 1) ∧
    ((clearing DrainSet.empty).resetn = false ∧
      (clearing DrainSet.empty).clearRec = some (clearOf DrainSet.empty)) ∧
    (holdWaiting.resetn = false ∧ (holdWaiting.port 5).holdWait = .present true ∧
      (holdWaiting.port 5).access = .idle) := by decide +kernel

/-- An offer that stands at 0. -/
def lapsing : State := shared.updWindow 0 fun x => x.setGrant 2 (.offered 3 .read (some 0))

theorem witness_TicksAgeOffers :
    shared.resetn = false ∧ shared.LastTick 0 3 ∧ (lapsing.window 0).grant 2 = .offered 3 .read (some 0) ∧
      (lapsing.window 0).owner = some 1 ∧ lapsing.resetn = false :=
  ⟨rfl, ⟨rfl, 2, .read, 1, by decide +kernel, le_refl 1⟩, by decide +kernel⟩

theorem witness_BankAndWipeEngineStart :
    (State.reset.resetn = false ∧ State.reset.bankReady = false ∧ State.reset.wpe = .idle ∧
      State.reset.wipeList.head? = some 0) ∧
    ((shared.makeDirty [6]).bankReady = true ∧ (shared.makeDirty [6]).wpe = .idle ∧
      (shared.makeDirty [6]).wipeList = [6] ∧ (shared.makeDirty [6]).unit = none) ∧
    ((copying 0).bankReady = true ∧ (copying 0).unit ≠ none) ∧
    (shared.rle = .idle ∧ shared.relocList = []) ∧
    ((shared.listForRelocation 3).relocList = [3] ∧ (shared.listForRelocation 3).freeList = [5, 6] ∧
      (shared.entry 3).st = .bound ⟨0, 0⟩ 0) ∧
    ({ shared with relocList := [3], freeList := [], rle := .waiting } : State).freeList = [] ∧
    (copying 0).rle ≠ .idle ∧ (copying 0).rle ≠ .waiting := by decide +kernel

/-- The Wipe Engine at extent 6. -/
def wiping (x : Wpe) (u : Option OpUnit) : State := { shared with wpe := x, unit := u, wipeWait := 16 }

/-- AP1 and AP2 present their accesses. -/
def presenting : State := withAccess (withAccess shared 1 (.issued readRec)) 2 (.orphaned readRec)

theorem witness_MemoryArbiterGrantsInOrder :
    ((wiping (.writing 6 0) none).resetn = false ∧ (wiping (.writing 6 0) none).bankReady = true ∧
      (wiping (.writing 6 0) none).refreshPending = false ∧ (wiping (.writing 6 0) none).wipeWait = 16 ∧
      (wiping (.writing 6 0) none).wpe.presents = some .wipe) ∧
    ((copying 0).rle.hasBlock = true ∧ (copying 0).prevGrant ≠ some .rle ∧ (copying 0).wpe = .idle) ∧
    ((presenting.port 1).access.presented = true ∧ presenting.rle.hasBlock = false ∧ presenting.unit = none ∧
      (∀ q, (presenting.port q).access.presented = true →
        (presenting.account 1).rank ≤ (presenting.account q).rank) ∧
      (∀ q, (presenting.port q).access.presented = true →
        turnsAfter (Tab.get presenting.lastGranted 2) 1 ≤ turnsAfter (Tab.get presenting.lastGranted 2) q)) ∧
    (∀ p, (shared.port p).access.presented = false) ∧
    (refreshing.refreshPending = true ∧ refreshing.unit = none) := by decide +kernel

theorem witness_WipeEngineWorksBlocks :
    ((wiping (.writing 6 127) (some .wipe)).resetn = false ∧
      Memory.wf (wiping (.writing 6 127) (some .wipe)).mem = true ∧
      (wiping (.writing 6 127) (some .wipe)).blocksPerExtent = 128) ∧
    ((wiping (.verifying 6 127 true) (some .verify)).unit = some .verify ∧
      (wiping (.verifying 6 127 true) (some .verify)).wpe = .verifying 6 127 true) := by decide +kernel

/-- The engine ABANDONING with a block in copy. -/
def abandoningFor (s : State) (o : DrainOwner) : State :=
  { s with rle := .abandoning 3 5 127 true o, unit := some .copy }

/-- A drain set with the engine and ports. -/
def rleDrain (p : PortSet) : DrainSet := { ports := p, rle := true }

/-- The engine the last member of the drain of the window in slot 0. -/
def lastMember : State :=
  abandoningFor (draining.updWindow 0 fun x => { x with drain := rleDrain PortSet.none }) (.window 0)

theorem witness_RelocationCopiesBlocks :
    ((shared.listForRelocation 3).resetn = false ∧ (shared.listForRelocation 3).rle = .idle ∧
      (shared.listForRelocation 3).relocList = [3] ∧ (shared.listForRelocation 3).freeList = [5, 6] ∧
      ((shared.listForRelocation 3).entry 3).st = .bound ⟨0, 0⟩ 0) ∧
    ((copying 127).unit = some .copy ∧ Memory.wf (copying 127).mem = true ∧
      127 < (copying 127).blocksPerExtent ∧ (copying 127).rle = .copying 3 5 127) ∧
    (lastMember.unit = some .copy ∧ lastMember.rle = .abandoning 3 5 127 true (.window 0) ∧
      (lastMember.window 0).drain.rle = true ∧ lastMember.underClear 0 = false ∧
      (lastMember.window 0).retiring ≠ [] ∧ (lastMember.window 0).drain.remove .rle = DrainSet.empty) ∧
    ((abandoningFor (clearing (rleDrain PortSet.all)) .clear).clearRec =
        some (clearOf (rleDrain PortSet.all)) ∧
      (rleDrain PortSet.all).remove .rle ≠ DrainSet.empty) := by decide +kernel

theorem witness_CutoverSwapsExtents :
    ((cutover .notRequested).resetn = false ∧
      (cutover .notRequested).rle = .cutover 3 5 128 PortSet.all PortSet.all PortSet.none .notRequested ∧
      PortSet.all.has 5 = true ∧ PortSet.none.has 5 = false) ∧
    ((cutover .requested).rle = .cutover 3 5 128 PortSet.all PortSet.all PortSet.none .requested ∧
      ((cutover .requested).entry 3).st = .moving ⟨0, 0⟩ 0) := by decide +kernel

theorem witness_PortsTakeSwapAndAbandonment :
    ((cutover (.taken PortSet.all PortSet.all)).resetn = false ∧ PortSet.all.has 5 = true) ∧
    ((PortSet.none.add 5).has 5 = true ∧ (PortSet.none.add 5).erase 5 = PortSet.none ∧
      (cutover (.taken (PortSet.none.add 5) PortSet.none)).rle =
        .cutover 3 5 128 PortSet.all PortSet.all PortSet.none (.taken (PortSet.none.add 5) PortSet.none)) ∧
    (State.abandonHanded { shared with abandonHanded := PortSet.all }).has 5 = true := by decide +kernel

/-! ### The hypotheses of the statements are met: the whole part -/

/-- The record of slot 0 of `shared`. -/
theorem shared_window_0 : shared.window 0 =
    { state := .opened, gen := 0, owner := some 1, extents := [3, 4], closedLen := 0,
      grants := #v[.active 1 .readWrite 0, .active 2 .read 0, .offered 3 .read (some 1), .vacant, .vacant,
        .vacant],
      drain := DrainSet.empty, retiring := [] } := by decide +kernel

/-- Every other slot is VACANT. -/
theorem shared_window_ne : ∀ w : WSlot, w ≠ 0 → shared.window w = Window.vacantAt 0 := by decide +kernel

theorem wf_shared_0 : (shared.window 0).Wf := by
  rw [shared_window_0]
  refine ⟨by simp, by simp, fun _ => ⟨1, 0, rfl, rfl⟩, by simp, by simp, by simp, by simp, by decide,
    by decide, by decide⟩

theorem wf_vacant (g : BitVec 8) : (Window.vacantAt g).Wf := by
  have hg : ∀ k, (Window.vacantAt g).grant k = .vacant := by
    intro k; simp [Window.vacantAt, Window.grant, Tab.get]
  refine ⟨fun _ => rfl, by simp [Window.vacantAt], by simp [Window.vacantAt], ?_, by simp [Window.vacantAt],
    by simp [Window.vacantAt], by simp [Window.vacantAt], ?_, ?_, ?_⟩
  · exact fun _ => ⟨rfl, fun k => by rw [hg]; exact ⟨rfl, rfl⟩⟩
  · rw [hg]; rfl
  · intro k _ h; rw [hg] at h; exact absurd rfl h
  · intro j k a h; rw [hg] at h; simp [Grant.isOf, Grant.agent] at h

theorem windowsWf_shared : shared.WindowsWf := by
  refine ⟨fun w => ?_, by decide +kernel, ?_, ?_⟩
  · by_cases h : w = 0
    · subst h; exact wf_shared_0
    · rw [shared_window_ne w h]; exact wf_vacant 0
  · intro w h; exact absurd h (by simp [State.underClear, show shared.clearRec = none from rfl])
  · intro c h; exact absurd h (by simp [show shared.clearRec = none from rfl])

theorem viewsOk_shared : shared.ViewsOk := by unfold State.ViewsOk; decide +kernel

theorem witness_LookupFindsCoveringView :
    shared.ViewsOk ∧ shared.WindowsWf ∧
      (∀ v ∈ shared.viewsOf 1, shared.covers v 0x4000 = false) ∧
      (∃ v ∈ shared.viewsOf 1, shared.covers v 0x3FFF = true ∧ v.revoked = false) ∧
      (∃ v ∈ revokedView.viewsOf 2, revokedView.covers v 0 = true ∧ v.revoked = true) :=
  ⟨viewsOk_shared, windowsWf_shared, by decide +kernel⟩

theorem witness_OfferAlwaysFindsVacantSlot :
    (shared.window 0).Wf ∧ (shared.window 0).state = .opened ∧ (shared.window 0).owner ≠ some 4 ∧
      ∀ k, ((shared.window 0).grant k).isOf 4 = false :=
  ⟨wf_shared_0, by decide +kernel⟩

/-- The Extent Map of `shared`. -/
theorem shared_entry (e : Extent) : shared.entry e =
    { st := if e = 6 then .free else if e = 5 then .free else if e = 4 then .bound ⟨0, 0⟩ 1
        else if e = 3 then .bound ⟨0, 0⟩ 0 else .quarantined .supervisor
      count := 0, poisoned := false } := by
  have h0 : ∀ i : Extent, Tab.get (Vector.replicate 1024
      ({ st := .quarantined .supervisor, count := 0, poisoned := false } : Entry)) i =
      { st := .quarantined .supervisor, count := 0, poisoned := false } := by
    intro i; simp [Tab.get]
  simp only [State.entry, shared, State.updExtent, State.updWindow, Tab.get_upd, h0, boundTo]
  by_cases h6 : e = 6
  · simp [h6]
  · by_cases h5 : e = 5
    · simp [h5]
    · by_cases h4 : e = 4
      · simp [h4]
      · by_cases h3 : e = 3 <;> simp [h3, h4, h5, h6]

theorem records_shared : shared.RecordsInv := by
  refine ⟨rfl, ?_, ⟨by decide, by decide, fun e => ?_⟩, ?_, ?_, ?_, ?_⟩
  · unfold State.SupervisorKinds; decide +kernel
  · rw [shared_entry]; exact Nat.zero_le _
  · unfold State.OnlySupervisorInProgress; decide +kernel
  · unfold State.AccountsInRange; decide +kernel
  · unfold State.ArbiterSane; decide +kernel
  · unfold State.Settled; decide +kernel

/-- `shared` with a tick waiting. -/
def ticking : State := { shared with pending := [.tick] }

theorem witness_StepsKeepRecordsSound : ∃ t, ticking.RecordsInv ∧ step ticking = .next t :=
  ⟨_, records_shared, rfl⟩

theorem witness_StepsKeepWindowsAndViewsSound : ∃ t, ticking.WindowsInv ∧ step ticking = .next t :=
  ⟨_, ⟨windowsWf_shared, viewsOk_shared⟩, rfl⟩

/-- The window of slot 0 is the only one with extents. -/
theorem shared_extents (w : WSlot) : (shared.window w).extents = if w = 0 then [3, 4] else [] := by
  by_cases h : w = 0
  · subst h; rw [shared_window_0]; rfl
  · rw [shared_window_ne w h, if_neg h]; rfl

theorem shared_handleOf (w : WSlot) : shared.handleOf w = ⟨0, w⟩ := by
  by_cases h : w = 0
  · subst h; unfold State.handleOf; rw [shared_window_0]
  · unfold State.handleOf; rw [shared_window_ne w h]; rfl

/-- Where the extents of `shared` are. -/
theorem shared_place (e : Extent) : (shared.entry e).st.place =
    if e = 4 then some (⟨0, 0⟩, 1) else if e = 3 then some (⟨0, 0⟩, 0) else none := by
  rw [shared_entry]
  by_cases h6 : e = 6
  · subst h6; rfl
  · by_cases h5 : e = 5
    · subst h5; rfl
    · by_cases h4 : e = 4
      · subst h4; rfl
      · by_cases h3 : e = 3 <;> simp [h3, h4, h5, h6, ExtState.place]

theorem places_shared : shared.PlacesAgree := by
  intro e w i
  rw [shared_place, shared_handleOf, shared_extents]
  by_cases h4 : e = 4
  · subst h4; by_cases hw : w = 0
    · subst hw; match i with
        | 0 => simp
        | 1 => simp
        | n + 2 => simp
    · simp [hw]; intro h; exact absurd h.symm hw
  · by_cases h3 : e = 3
    · subst h3; by_cases hw : w = 0
      · subst hw; match i with
          | 0 => simp
          | 1 => simp
          | n + 2 => simp
      · simp [hw]; intro h; exact absurd h.symm hw
    · by_cases hw : w = 0
      · subst hw; match i with
          | 0 => simp [h3, h4, Ne.symm h3]
          | 1 => simp [h3, h4, Ne.symm h4]
          | n + 2 => simp [h3, h4]
      · simp [h3, h4, hw]

theorem pool_shared : shared.PoolInv := by
  refine ⟨windowsWf_shared, fun _ => ⟨⟨by decide, by decide, by decide, fun e => ?_, fun e => ?_, ?_, fun e => ?_⟩,
    places_shared, ?_, ⟨fun e => ?_, fun e => ?_⟩, ?_⟩⟩
  · rw [shared_entry]
    by_cases h6 : e = 6
    · subst h6; simp [shared]
    · by_cases h5 : e = 5
      · subst h5; simp [shared]
      · by_cases h4 : e = 4
        · subst h4; simp [shared]
        · by_cases h3 : e = 3 <;> simp [shared, h3, h4, h5, h6]
  · rw [shared_entry]
    by_cases h6 : e = 6
    · subst h6; simp [shared]
    · by_cases h5 : e = 5
      · subst h5; simp [shared]
      · by_cases h4 : e = 4
        · subst h4; simp [shared]
        · by_cases h3 : e = 3 <;> simp [shared, h3, h4, h5, h6]
  · intro e h; exact absurd h (by simp [show shared.relocList = [] from rfl])
  · rw [show shared.wpe = .idle from rfl, shared_entry]
    by_cases h6 : e = 6
    · subst h6; simp [Wpe.current]
    · by_cases h5 : e = 5
      · subst h5; simp [Wpe.current]
      · by_cases h4 : e = 4
        · subst h4; simp [Wpe.current]
        · by_cases h3 : e = 3 <;> simp [Wpe.current, h3, h4, h5, h6]
  · intro e h i hp
    rw [shared_place] at hp
    rw [shared_handleOf]
    split at hp
    · simp at hp; rw [← hp.1]; rfl
    · split at hp
      · simp at hp; rw [← hp.1]; rfl
      · simp at hp
  · rw [show shared.rle = .idle from rfl, shared_entry]
    by_cases h6 : e = 6
    · subst h6; simp [ExtState.isMoving, Rle.live]
    · by_cases h5 : e = 5
      · subst h5; simp [ExtState.isMoving, Rle.live]
      · by_cases h4 : e = 4
        · subst h4; simp [ExtState.isMoving, Rle.live]
        · by_cases h3 : e = 3 <;> simp [ExtState.isMoving, Rle.live, h3, h4, h5, h6]
  · rw [show shared.rle = .idle from rfl, shared_entry]
    by_cases h6 : e = 6
    · subst h6; simp [Rle.live]
    · by_cases h5 : e = 5
      · subst h5; simp [Rle.live]
      · by_cases h4 : e = 4
        · subst h4; simp [Rle.live]
        · by_cases h3 : e = 3 <;> simp [Rle.live, h3, h4, h5, h6]
  · have hr : shared.allRetiring = [] := by
      unfold State.allRetiring
      rw [show shared.clearRec = none from rfl]
      simp only [List.append_nil, List.flatMap_eq_nil_iff]
      intro w _
      by_cases h : w = 0
      · subst h; rw [shared_window_0]
      · rw [shared_window_ne w h]; rfl
    refine ⟨by rw [hr]; exact List.nodup_nil, fun e => ?_⟩
    rw [hr, shared_entry]
    by_cases h6 : e = 6
    · subst h6; simp
    · by_cases h5 : e = 5
      · subst h5; simp
      · by_cases h4 : e = 4
        · subst h4; simp
        · by_cases h3 : e = 3 <;> simp [h3, h4, h5, h6]

theorem witness_ArstnPinResetsPort :
    shared.PoolInv ∧ (shared.resetn = false ∧ (shared.port 1).arstn = false) ∧
      (underResetn.resetn = true ∧ (underResetn.port 1).arstn = false) ∧
      ((shared.updPort 5 fun u => { u with arstn := true }).port 5).arstn = true :=
  ⟨pool_shared, by decide +kernel⟩

theorem witness_ResetPortResetsNamedPort :
    (cmd shared 0 0x45 5 0 0 0).PoolInv ∧ (0 : Port) = (cmd shared 0 0x45 5 0 0 0).supervisor ∧
      State.Due (cmd shared 0 0x45 5 0 0 0) 0 0x45 ∧
      ((cmd shared 0 0x45 5 0 0 0).args 0).w0.toNat = (5 : Port).val ∧
      State.Due (cmd shared 0 0x45 6 0 0 0) 0 0x45 ∧ ((cmd shared 0 0x45 6 0 0 0).args 0).w0.toNat = 6 ∧
      State.Due (cmd shared 0 0x45 0 0 0 0) 0 0x45 :=
  ⟨pool_shared, by decide +kernel⟩

theorem witness_StepsKeepPoolCoherent : ∃ t, ticking.PoolInv ∧ step ticking = .next t :=
  ⟨_, pool_shared, rfl⟩

end Sys2Proof.Test
end

section
/-!
SUPPORT. What a command taken at the Window Directory can lead to: the cases of `State.takeCommand`, and of each
command's verdict with the checks that its effect has passed.
-/

namespace Sys2Proof.Machine

section Verdicts

/-- A verdict's effect has `P` where the command is finished at its take and `Q` where it stays in progress; a
refusal has no effect. -/
def Verdict.All (P Q : State → Prop) : Verdict → Prop
  | .refuse _ => True
  | .finished t _ => P t
  | .inProgress t => Q t

/-- What follows the checks is met only where all of them have passed. -/
theorem checks_all {P Q : State → Prop} {l : List (Bool × Status)} {v : Verdict}
    (h : (∀ c ∈ l, c.1 = true) → v.All P Q) : (checks l v).All P Q := by
  induction l with
  | nil => exact h (by simp)
  | cons c l ih =>
    obtain ⟨ok, st⟩ := c
    cases ok
    · exact True.intro
    · exact ih fun hl => h (by simpa using hl)

theorem supervisorOnly_all {P Q : State → Prop} {p : Port} {s : State} {body : State → Verdict}
    (h : p = s.supervisor → (body s).All P Q) : (supervisorOnly p s body).All P Q := by
  unfold supervisorOnly State.privileged
  split
  · next hp => exact h (by simpa using hp)
  · exact True.intro

/-- The caller's slot in progress (R69). -/
def State.slotInProgress (s : State) (p : Port) : State :=
  s.updPort p fun u => { u with slot := { u.slot with state := .inProgress } }

/-- What is kept by the arbiter's turn, by the finish of a command and by the command's own effect is kept by the
take of the command. -/
theorem State.takeCommand_keeps {P Q : State → Prop} {s t : State} {p : Port} {isCode : BitVec 8 → Bool}
    {body : State → Verdict} (hs : P s) (hserved : P (s.served p))
    (hfinish : ∀ u st res, P u → P (u.finish p st res)) (hprogress : ∀ u, Q u → P (u.slotInProgress p))
    (hbody : s.resetn = false → (body (s.served p)).All P Q) (h : s.takeCommand p isCode body = .next t) : P t := by
  by_cases hd : s.resetn = false ∧ s.nextCaller = some p ∧ isCode (s.port p).slot.code = true
  · obtain ⟨h1, h2, h3⟩ := hd
    rw [State.takeCommand_due s p isCode body h1 h2 h3] at h
    have hb := hbody h1
    cases hv : body (s.served p) with
    | refuse st =>
      simp only [hv, Host.Outcome.next.injEq] at h
      exact h ▸ hfinish _ _ _ hserved
    | finished u res =>
      simp only [hv, Host.Outcome.next.injEq] at h
      rw [hv] at hb
      exact h ▸ hfinish _ _ _ hb
    | inProgress u =>
      simp only [hv, Host.Outcome.next.injEq] at h
      rw [hv] at hb
      exact h ▸ hprogress _ hb
  · rw [State.takeCommand_not_due s p isCode body hd] at h
    cases h
    exact hs

variable {P Q : State → Prop} {p : Port} {s : State}

theorem slotOf_some {x : Window} {a : Port} {k : GSlot} (h : x.slotOf a = some k) :
    (x.grant k).agent = some a := by
  have := List.find?_some h
  simpa [Grant.isOf] using this

theorem slotOf_none {x : Window} {a : Port} (h : x.slotOf a = none) (k : GSlot) : (x.grant k).agent ≠ some a := by
  have := (List.find?_eq_none.1 h) k (List.mem_finRange k)
  simpa [Grant.isOf] using this

theorem openVerdict_all
    (h : ∀ w n base, (s.window w).state = .vacant → 1 ≤ n → n ≤ 128 → s.baseOk base = true → s.fits base n = true →
      s.viewsHeld p < 16 → (∀ v ∈ s.viewsOf p, s.meets base n v = false) → n ≤ s.freeList.length →
      P (s.openAt p w n base)) : (openVerdict p s).All P Q := by
  refine checks_all fun hc => ?_
  split
  · exact True.intro
  · next w hw =>
    refine checks_all fun hn => ?_
    simp only [List.mem_cons, List.not_mem_nil, or_false, forall_eq_or_imp, forall_eq, decide_eq_true_eq,
      Bool.not_eq_true', List.any_eq_false, Bool.not_eq_true] at hc hn
    obtain ⟨⟨h1, h128⟩, hbase, hfits, -, -, hheld, hmeets⟩ := hc
    have hvac : (s.window w).state = .vacant := by simpa using List.find?_some hw
    exact h w _ _ hvac h1 h128 hbase hfits hheld hmeets hn

theorem growVerdict_all
    (h : ∀ w n, (s.window w).state = .opened → (s.window w).drain = DrainSet.empty → 1 ≤ n →
      (s.window w).extents.length + n ≤ 128 → s.growFits w ((s.window w).extents.length + n) = true →
      s.growClear w ((s.window w).extents.length + n) = true → n ≤ s.freeList.length → P (s.growBy w n)) :
    (growVerdict p s).All P Q := by
  unfold growVerdict
  dsimp only
  split
  · exact True.intro
  · next w _ =>
    refine checks_all fun hc => ?_
    simp only [List.mem_cons, List.not_mem_nil, or_false, forall_eq_or_imp, forall_eq, decide_eq_true_eq,
      Bool.and_eq_true, DrainSet.isEmpty_iff] at hc
    obtain ⟨⟨h1, -⟩, -, ⟨⟨hopen, hdrain⟩, -⟩, hlen, -, hfits, hclear, hn⟩ := hc
    exact h w _ hopen hdrain h1 hlen hfits hclear hn

theorem shrinkVerdict_all
    (h : ∀ w n, (s.window w).state = .opened → 1 ≤ n → n < (s.window w).extents.length → P (s.shrinkBy w n).settle) :
    (shrinkVerdict p s).All P Q := by
  unfold shrinkVerdict
  dsimp only
  split
  · exact True.intro
  · next w _ =>
    refine checks_all fun hc => ?_
    simp only [List.mem_cons, List.not_mem_nil, or_false, forall_eq_or_imp, forall_eq, decide_eq_true_eq,
      Bool.and_eq_true] at hc
    obtain ⟨⟨h1, -⟩, -, ⟨hopen, -⟩, hn⟩ := hc
    exact h w _ hopen h1 hn

theorem closeVerdict_all
    (h : ∀ w, (s.window w).state = .opened → P (s.closeWindow p false w).settle) : (closeVerdict p s).All P Q := by
  unfold closeVerdict
  split
  · exact True.intro
  · next w _ =>
    refine checks_all fun hc => ?_
    simp only [List.mem_cons, List.not_mem_nil, or_false, forall_eq_or_imp, forall_eq, decide_eq_true_eq] at hc
    exact h w hc.2

theorem forceCloseVerdict_all
    (h : ∀ w, (s.window w).state = .opened → P (s.closeWindow p true w).settle) :
    (forceCloseVerdict p s).All P Q := by
  unfold forceCloseVerdict
  split
  · exact True.intro
  · next w _ =>
    refine checks_all fun hc => ?_
    simp only [List.mem_cons, List.not_mem_nil, or_false, forall_eq, decide_eq_true_eq] at hc
    exact h w hc

theorem offerVerdict_all (hs : P s)
    (h : ∀ w k a rights life, (s.window w).state = .opened → (s.window w).owner ≠ some a →
      (∀ j, ((s.window w).grant j).agent ≠ some a) → k ≠ 0 → (s.window w).grant k = .vacant →
      P ((s.setGrant w k (.offered a rights life)).addAttention a .offers)) : (offerVerdict p s).All P Q := by
  unfold offerVerdict
  dsimp only
  split
  · exact True.intro
  next w _ =>
  split
  · exact True.intro
  next a _ =>
  split
  · exact True.intro
  next howner =>
  split
  · exact True.intro
  next rights _ =>
  split
  · exact True.intro
  next life _ =>
  refine checks_all fun hc => ?_
  simp only [List.mem_cons, List.not_mem_nil, or_false, forall_eq_or_imp, forall_eq, decide_eq_true_eq] at hc
  obtain ⟨-, hopen, -, hslot⟩ := hc
  unfold State.makeOffer
  split
  · exact hs
  · next k hk =>
    have := List.find?_some hk
    simp only [Bool.and_eq_true, decide_eq_true_eq] at this
    exact h w k a rights life hopen howner (slotOf_none hslot) this.1 this.2

theorem withdrawVerdict_all
    (h : ∀ w k a, ((s.window w).grant k).isOffered = true → P ((s.setGrant w k .vacant).addAttention a .offers)) :
    (withdrawVerdict p s).All P Q := by
  unfold withdrawVerdict
  dsimp only
  split
  · exact True.intro
  next w _ =>
  split
  · exact True.intro
  next a _ =>
  refine checks_all fun _ => ?_
  split
  · exact True.intro
  next k _ =>
  refine checks_all fun hc => ?_
  exact h w k a (by simpa using hc)

theorem acceptVerdict_all
    (h : ∀ w k rights life base, (s.window w).grant k = .offered p rights life → s.baseOk base = true →
      s.viewsHeld p < 16 → s.fits base (s.window w).extents.length = true →
      (∀ v ∈ s.viewsOf p, s.meets base (s.window w).extents.length v = false) →
      P ((s.setGrant w k (.active p rights base)).tellOwner w)) : (acceptVerdict p s).All P Q := by
  unfold acceptVerdict
  dsimp only
  split
  · exact True.intro
  next w _ =>
  refine checks_all fun hb => ?_
  split
  · exact True.intro
  next k hk =>
  split
  · next a rights life hg =>
    refine checks_all fun hc => ?_
    simp only [List.mem_cons, List.not_mem_nil, or_false, forall_eq_or_imp, forall_eq, decide_eq_true_eq,
      Bool.not_eq_true', List.any_eq_false, Bool.not_eq_true] at hc hb
    obtain ⟨hheld, hfits, hmeets⟩ := hc
    have ha : a = p := by
      have := slotOf_some hk
      rw [hg] at this
      exact Option.some.inj this
    exact h w k rights life _ (ha ▸ hg) hb hheld hfits hmeets
  all_goals exact True.intro

theorem declineVerdict_all
    (h : ∀ w k, ((s.window w).grant k).isOffered = true → P ((s.setGrant w k .vacant).tellOwner w)) :
    (declineVerdict p s).All P Q := by
  unfold declineVerdict
  split
  · exact True.intro
  next w _ =>
  split
  · exact True.intro
  next k _ =>
  refine checks_all fun hc => ?_
  exact h w k (by simpa using hc)

theorem revokeVerdict_all
    (h : ∀ w k a, (s.window w).owner ≠ some a → ((s.window w).grant k).agent = some a →
      ((s.window w).grant k).isActive = true →
      P ((s.setGrant w k ((s.window w).grant k).revoke).tellRevoked p a (s.window w).owner)) :
    (revokeVerdict p s).All P Q := by
  unfold revokeVerdict
  dsimp only
  split
  · exact True.intro
  next w _ =>
  split
  · exact True.intro
  next a _ =>
  refine checks_all fun hc => ?_
  split
  · exact True.intro
  next k hk =>
  refine checks_all fun hg => ?_
  simp only [List.mem_cons, List.not_mem_nil, or_false, forall_eq_or_imp, forall_eq, decide_eq_true_eq] at hc hg
  exact h w k a hc.1 (slotOf_some hk) hg

theorem releaseVerdict_all
    (h : ∀ w k, ((s.window w).grant k).isView = true → (k = 0 → (s.window w).state ≠ .opened) →
      P (s.updWindow w fun x => x.released k) ∧ P ((s.updWindow w fun x => x.released k).tellOwner w)) :
    (releaseVerdict p s).All P Q := by
  unfold releaseVerdict
  dsimp only
  split
  · exact True.intro
  next w _ =>
  split
  · exact True.intro
  next k _ =>
  refine checks_all fun hc => ?_
  simp only [List.mem_cons, List.not_mem_nil, or_false, forall_eq_or_imp, forall_eq, Bool.not_eq_true',
    Bool.and_eq_false_iff, decide_eq_false_iff_not] at hc
  obtain ⟨hview, hslot⟩ := hc
  have := h w k hview (by tauto)
  show P _
  split
  · exact this.2
  · exact this.1

/-- A read command finishes in the state it found (R113). -/
theorem readWindowVerdict_all (hs : P s) : (readWindowVerdict p s).All P Q := by
  unfold readWindowVerdict
  split
  · exact True.intro
  · exact checks_all fun _ => hs

theorem readGrantVerdict_all (hs : P s) : (readGrantVerdict p s).All P Q := by
  unfold readGrantVerdict
  split
  · exact True.intro
  · split
    · exact True.intro
    · exact checks_all fun _ => hs

theorem readViewVerdict_all (hs : P s) : (readViewVerdict p s).All P Q := by
  unfold readViewVerdict
  split
  · exact True.intro
  · split
    · exact True.intro
    · exact hs

theorem readOfferVerdict_all (hs : P s) : (readOfferVerdict p s).All P Q := by
  unfold readOfferVerdict
  split
  · exact True.intro
  · split
    · exact True.intro
    · exact hs

theorem readExtentVerdict_all (hs : P s) : (readExtentVerdict p s).All P Q := by
  unfold readExtentVerdict
  split
  · exact True.intro
  · exact hs

theorem setQuotaVerdict_all
    (h : ∀ a n m, n ≤ 16 → m ≤ 1024 →
      P (s.updAccount a fun x => { x with windowQuota := n, extentQuota := m })) :
    (setQuotaVerdict p s).All P Q := by
  unfold setQuotaVerdict
  split
  · exact True.intro
  next a _ =>
  refine checks_all fun hc => ?_
  simp only [List.mem_cons, List.not_mem_nil, or_false, forall_eq_or_imp, forall_eq, decide_eq_true_eq] at hc
  exact h a _ _ hc.1 hc.2

theorem setRankVerdict_all (h : ∀ a r, P (s.updAccount a fun x => { x with rank := r })) :
    (setRankVerdict p s).All P Q := by
  unfold setRankVerdict
  split
  · exact True.intro
  · split
    · exact True.intro
    · exact h _ _

theorem setThresholdVerdict_all (h : ∀ n, 1 ≤ n → n ≤ 15 → P (s.newThreshold n).settle) :
    (setThresholdVerdict p s).All P Q := by
  refine checks_all fun hc => ?_
  simp only [List.mem_cons, List.not_mem_nil, or_false, forall_eq, decide_eq_true_eq] at hc
  exact h _ hc.1 hc.2

theorem holdVerdict_all (hs : P s) (h : ∀ q, P (s.setHold q))
    (hwait : ∀ q, Q ((s.setHold q).updPort q fun u => { u with holdWait := .present true })) :
    (holdVerdict p s).All P Q := by
  unfold holdVerdict
  split
  · exact True.intro
  next q _ =>
  split
  · exact True.intro
  unfold State.holdPort
  split
  · exact hs
  · split
    · exact h q
    · exact hwait q

theorem resumeVerdict_all (h : ∀ q, P (s.resumePort q)) : (resumeVerdict p s).All P Q := by
  unfold resumeVerdict
  split
  · exact True.intro
  · exact h _

theorem resetPortVerdict_all (h : ∀ q, P (s.resetPort q p).settle) : (resetPortVerdict p s).All P Q := by
  unfold resetPortVerdict
  split
  · exact True.intro
  · split
    · exact True.intro
    · exact h _

theorem migrateVerdict_all
    (h : ∀ e, (s.entry e).st.isBound = true → e ∉ s.relocList → P (s.listForRelocation e).settle) :
    (migrateVerdict p s).All P Q := by
  unfold migrateVerdict
  split
  · exact True.intro
  next e _ =>
  refine checks_all fun hc => ?_
  simp only [List.mem_cons, List.not_mem_nil, or_false, forall_eq_or_imp, forall_eq, decide_eq_true_eq] at hc
  exact h e hc.1 hc.2

theorem quarantineVerdict_all
    (h : ∀ e, (s.entry e).st = .free ∨ (s.entry e).st = .dirty → P (s.quarantineExtent e)) :
    (quarantineVerdict p s).All P Q := by
  unfold quarantineVerdict
  split
  · exact True.intro
  next e _ =>
  refine checks_all fun hc => ?_
  simp only [List.mem_cons, List.not_mem_nil, or_false, forall_eq, decide_eq_true_eq] at hc
  exact h e hc

theorem restoreVerdict_all
    (h : ∀ e, (s.entry e).st.isQuarantined = true → P (s.makeDirty [e]).settle) : (restoreVerdict p s).All P Q := by
  unfold restoreVerdict
  split
  · exact True.intro
  next e _ =>
  refine checks_all fun hc => ?_
  exact h e (by simpa using hc)

theorem clearVerdict_all
    (hend : P (State.endClearDrain { s.clearTables with clearRec := some (s.clearRecord false) }).settle)
    (hgo : s.clearDrain ≠ DrainSet.empty →
      Q (State.settle { s.clearTables with clearRec := some (s.clearRecord true) })) :
    (clearVerdict s).All P Q := by
  unfold clearVerdict
  split
  · exact hend
  · next h => exact hgo fun he => h ((DrainSet.isEmpty_iff _).2 he)

end Verdicts

section Taken

/-- A command taken at the Window Directory: its port, the codes of its row and its verdict. -/
def takenCommand : Instr → Option (Port × (BitVec 8 → Bool) × (State → Verdict))
  | .undefinedCommand p => some (p, fun c => decide (c ∉ commandCodes), fun _ => .refuse .badCommand)
  | .openWindow p => some (p, (· == 0x01), openVerdict p)
  | .grow p => some (p, (· == 0x02), growVerdict p)
  | .shrink p => some (p, (· == 0x03), shrinkVerdict p)
  | .close p => some (p, (· == 0x04), closeVerdict p)
  | .offer p => some (p, (· == 0x10), offerVerdict p)
  | .withdraw p => some (p, (· == 0x11), withdrawVerdict p)
  | .accept p => some (p, (· == 0x12), acceptVerdict p)
  | .decline p => some (p, (· == 0x13), declineVerdict p)
  | .revoke p => some (p, (· == 0x14), revokeVerdict p)
  | .release p => some (p, (· == 0x15), releaseVerdict p)
  | .readWindow p => some (p, (· == 0x20), readWindowVerdict p)
  | .readGrant p => some (p, (· == 0x21), readGrantVerdict p)
  | .readView p => some (p, (· == 0x22), readViewVerdict p)
  | .readOffer p => some (p, (· == 0x23), readOfferVerdict p)
  | .readAccount p => some (p, (· == 0x24), readAccountVerdict p)
  | .setQuota p => some (p, (· == 0x40), fun t => supervisorOnly p t (setQuotaVerdict p))
  | .setRank p => some (p, (· == 0x41), fun t => supervisorOnly p t (setRankVerdict p))
  | .setThreshold p => some (p, (· == 0x42), fun t => supervisorOnly p t (setThresholdVerdict p))
  | .hold p => some (p, (· == 0x43), fun t => supervisorOnly p t (holdVerdict p))
  | .resume p => some (p, (· == 0x44), fun t => supervisorOnly p t (resumeVerdict p))
  | .resetPort p => some (p, (· == 0x45), fun t => supervisorOnly p t (resetPortVerdict p))
  | .forceClose p => some (p, (· == 0x46), fun t => supervisorOnly p t (forceCloseVerdict p))
  | .migrate p => some (p, (· == 0x47), fun t => supervisorOnly p t (migrateVerdict p))
  | .quarantine p => some (p, (· == 0x48), fun t => supervisorOnly p t (quarantineVerdict p))
  | .restore p => some (p, (· == 0x49), fun t => supervisorOnly p t (restoreVerdict p))
  | .readExtent p => some (p, (· == 0x4A), fun t => supervisorOnly p t (readExtentVerdict p))
  | .readPool p => some (p, (· == 0x4B), fun t => supervisorOnly p t fun u => .finished u u.poolWords)
  | .clear p => some (p, (· == 0x4F), fun t => supervisorOnly p t clearVerdict)
  | _ => none

/-- Such a command is the take of its verdict. -/
theorem exec_of_taken {c : Instr} {p : Port} {isCode : BitVec 8 → Bool} {body : State → Verdict}
    (h : takenCommand c = some (p, isCode, body)) (s : State) : exec c s = s.takeCommand p isCode body := by
  cases c <;> cases h <;> rfl

/-- A step takes the front command of the queue, and an empty queue leaves the part idle. -/
theorem step_cases {s t : State} (ht : step s = .next t) :
    t = s ∨ ∃ c rest, s.pending = c :: rest ∧ exec c { s with pending := rest } = .next t := by
  unfold step at ht
  split at ht
  · exact Or.inl (by cases ht; rfl)
  · next c rest hp => exact Or.inr ⟨c, rest, hp, ht⟩

end Taken

end Sys2Proof.Machine
end

section
/-!
The records and registers of the part (O57): what single records keep under each shared operation
(`State.Sound`), what is left to do at once after it (`State.Settled`), and both after every command.
-/

namespace Sys2Proof.Machine

section Sound

/-- The part of `State.RecordsInv` that every shared operation keeps, whether or not what happens at once has
happened. -/
def State.Sound (s : State) : Prop :=
  s.MemCanonical ∧ s.SupervisorKinds ∧ s.CountsBounded ∧ s.OnlySupervisorInProgress ∧ s.AccountsInRange ∧
    s.ArbiterSane

theorem State.recordsInv_iff (s : State) : s.RecordsInv ↔ s.Sound ∧ s.Settled := by
  simp only [State.RecordsInv, State.Sound, and_assoc]

/-- What `State.Sound` speaks of. -/
structure Registers where
  mem            : Memory
  straps         : Straps
  ports          : Vector PortUnit 6
  threshold      : Nat
  extents        : Vector Entry 1024
  accounts       : Vector Account 6
  wipeWait       : Nat
  unit           : Option OpUnit
  bankReady      : Bool
  resetn         : Bool
  refreshPending : Bool

/-- Those parts of a state. -/
def State.registers (s : State) : Registers :=
  { mem := s.mem, straps := s.straps, ports := s.ports, threshold := s.threshold, extents := s.extents
    accounts := s.accounts, wipeWait := s.wipeWait, unit := s.unit, bankReady := s.bankReady, resetn := s.resetn
    refreshPending := s.refreshPending }

/-- A port record that holds MOVED, QUARANTINED or a command in progress only where `u` does. -/
def PortUnit.Within (u v : PortUnit) : Prop :=
  (KindSet.has v.attention .moved = true → KindSet.has u.attention .moved = true) ∧
  (KindSet.has v.attention .quarantined = true → KindSet.has u.attention .quarantined = true) ∧
  (v.slot.state = .inProgress → u.slot.state = .inProgress)

theorem PortUnit.Within.of_slot {u v : PortUnit} (ha : v.attention = u.attention)
    (hs : v.slot.state = .inProgress → u.slot.state = .inProgress) : u.Within v := by
  unfold PortUnit.Within
  rw [ha]
  exact ⟨id, id, hs⟩

theorem PortUnit.Within.of_same {u v : PortUnit} (ha : v.attention = u.attention) (hs : v.slot = u.slot) :
    u.Within v := .of_slot ha (by rw [hs]; exact id)

/-- The kinds that any port may receive (R75). -/
def Kind.forAgents (k : Kind) : Prop := k ≠ .moved ∧ k ≠ .quarantined

theorem PortUnit.within_addIf (u : PortUnit) {k : Kind} (hk : k.forAgents) (c : Bool) :
    u.Within { u with attention := KindSet.addIf c u.attention k } := by
  obtain ⟨h1, h2⟩ := hk
  refine ⟨fun h => ?_, fun h => ?_, id⟩
  · simpa [KindSet.has_addIf, Ne.symm h1] using h
  · simpa [KindSet.has_addIf, Ne.symm h2] using h

theorem PortUnit.within_add (u : PortUnit) {k : Kind} (hk : k.forAgents) :
    u.Within { u with attention := KindSet.add u.attention k } := u.within_addIf hk true

variable {s t : State}

theorem State.Sound.congr (h : s.Sound) (hr : t.registers = s.registers) : t.Sound := by
  obtain ⟨hmem, hstraps, hports, hthreshold, hextents, haccounts, hwait, hunit, hready, hresetn, hrefresh⟩ :=
    Registers.mk.inj hr
  obtain ⟨h1, h2, h3, h4, h5, h6⟩ := h
  refine ⟨?_, ?_, ?_, ?_, ?_, ?_⟩
  · rwa [State.MemCanonical, hmem]
  · simpa only [State.SupervisorKinds, State.supervisor, State.port, hstraps, hports] using h2
  · simpa only [State.CountsBounded, State.entry, hthreshold, hextents] using h3
  · simpa only [State.OnlySupervisorInProgress, State.supervisor, State.port, hstraps, hports] using h4
  · simpa only [State.AccountsInRange, State.account, haccounts] using h5
  · simpa only [State.ArbiterSane, hwait, hunit, hready, hresetn, hrefresh] using h6

/-- A change of port records that gives no port but the supervisor a kind or a command that is not for it. -/
theorem State.Sound.setPorts (h : s.Sound) {ports : Vector PortUnit 6}
    (hp : ∀ p, p ≠ s.supervisor → (s.port p).Within (Tab.get ports p)) :
    State.Sound { s with ports := ports } := by
  obtain ⟨hmem, hkinds, hcounts, hslots, haccounts, harbiter⟩ := h
  refine ⟨hmem, fun p hsup => ?_, hcounts, fun p hprog => ?_, haccounts, harbiter⟩
  · obtain ⟨hm, hq, -⟩ := hp p hsup
    obtain ⟨hm', hq'⟩ := hkinds p hsup
    exact ⟨Bool.eq_false_iff.2 fun he => absurd (hm he) (by simp [hm']),
      Bool.eq_false_iff.2 fun he => absurd (hq he) (by simp [hq'])⟩
  · by_contra hsup
    exact hsup (hslots p ((hp p hsup).2.2 hprog))

theorem State.Sound.updPort (h : s.Sound) {p : Port} {f : PortUnit → PortUnit}
    (hf : p ≠ s.supervisor → (s.port p).Within (f (s.port p))) : (s.updPort p f).Sound := by
  refine h.setPorts fun q hq => ?_
  rw [Tab.get_upd]
  split
  · next he => subst he; exact hf hq
  · exact .of_same rfl rfl

theorem State.Sound.mapPorts (h : s.Sound) {f : Port → PortUnit → PortUnit}
    (hf : ∀ p, p ≠ s.supervisor → (s.port p).Within (f p (s.port p))) : (s.mapPorts f).Sound :=
  h.setPorts fun q hq => by rw [Tab.get_mapAll]; exact hf q hq

theorem State.Sound.addAttention (h : s.Sound) {p : Port} {k : Kind} (hk : k.forAgents) :
    (s.addAttention p k).Sound := h.updPort fun _ => PortUnit.within_add _ hk

/-- MOVED and QUARANTINED are added at the Supervisor Port (R75). -/
theorem State.Sound.addSupervisor (h : s.Sound) (k : Kind) : (s.addAttention s.supervisor k).Sound :=
  h.updPort fun hne => absurd rfl hne

theorem State.Sound.addAttentionWhere (h : s.Sound) {c : Port → Bool} {k : Kind} (hk : k.forAgents) :
    (s.addAttentionWhere c k).Sound := h.mapPorts fun _ _ => PortUnit.within_addIf _ hk _

/-- A change of the Extent Map that leaves every count within the threshold (R34). -/
theorem State.Sound.setExtents (h : s.Sound) {extents : Vector Entry 1024}
    (hc : ∀ e, (Tab.get extents e).count ≤ s.threshold) : State.Sound { s with extents := extents } := by
  obtain ⟨hmem, hkinds, ⟨hlow, hhigh, -⟩, hslots, haccounts, harbiter⟩ := h
  exact ⟨hmem, hkinds, ⟨hlow, hhigh, hc⟩, hslots, haccounts, harbiter⟩

theorem State.Sound.count_le (h : s.Sound) (e : Extent) : (s.entry e).count ≤ s.threshold := h.2.2.1.2.2 e

theorem State.Sound.updExtent (h : s.Sound) {e : Extent} {f : Entry → Entry}
    (hf : (f (s.entry e)).count ≤ s.threshold) : (s.updExtent e f).Sound := by
  refine h.setExtents fun x => ?_
  rw [Tab.get_upd]
  split
  · next he => subst he; exact hf
  · exact h.count_le x

theorem State.Sound.mapExtents (h : s.Sound) {f : Extent → Entry → Entry}
    (hf : ∀ e, (f e (s.entry e)).count ≤ s.threshold) : (s.mapExtents f).Sound :=
  h.setExtents fun e => by rw [Tab.get_mapAll]; exact hf e

theorem State.Sound.setMem (h : s.Sound) {m : Memory} (hm : Memory.wf m = true) : State.Sound { s with mem := m } := by
  obtain ⟨-, hkinds, hcounts, hslots, haccounts, harbiter⟩ := h
  exact ⟨hm, hkinds, hcounts, hslots, haccounts, harbiter⟩

theorem State.Sound.memWf (h : s.Sound) : Memory.wf s.mem = true := h.1

end Sound

section SharedOperations

variable {s : State}

theorem State.Sound.recordFault (h : s.Sound) (p : Port) (k : FaultKind) (a : Word) (b : Bool) (hd : Option Handle) :
    (s.recordFault p k a b hd).Sound := by
  unfold State.recordFault
  split
  · exact State.Sound.addAttention (h.updPort fun _ => .of_same rfl rfl) ⟨by decide, by decide⟩
  · exact h.updPort fun _ => .of_same rfl rfl

theorem State.Sound.respond (h : s.Sound) (p : Port) (c : BusCode) (d : Option Word) : (s.respond p c d).Sound :=
  h.updPort fun _ => .of_same rfl rfl

theorem State.Sound.finish (h : s.Sound) (p : Port) (st : Status) (res : Words4) : (s.finish p st res).Sound := by
  refine State.Sound.addAttention (h.updPort fun _ => .of_slot rfl fun hp => ?_) ⟨by decide, by decide⟩
  cases hp

theorem State.Sound.endHoldWait (h : s.Sound) (q : Port) : (s.endHoldWait q).Sound := by
  unfold State.endHoldWait
  split
  · exact h
  · have h1 := h.updPort (p := q) (f := fun u => { u with holdWait := .absent }) fun _ => .of_same rfl rfl
    dsimp only
    split
    · exact h1.finish _ _ _
    · exact h1

theorem State.Sound.makeDirty (h : s.Sound) (l : List Extent) : (s.makeDirty l).Sound := by
  have h1 : (s.mapExtents fun e x => if e ∈ l then { x with st := .dirty } else x).Sound :=
    h.mapExtents fun e => by split <;> exact h.count_le e
  exact h1.congr rfl

theorem State.Sound.restIf (h : s.Sound) (o : DrainOwner) : (s.restIf o).Sound := by
  unfold State.restIf
  split
  · split
    · exact h.congr rfl
    · exact h
  all_goals exact h

theorem State.Sound.endDrain (h : s.Sound) (w : WSlot) : (s.endDrain w).Sound := by
  have h1 := h.makeDirty (s.window w).retiring
  unfold State.endDrain
  dsimp only
  apply State.Sound.restIf
  refine State.Sound.congr (s := match (s.window w).owner with
    | some o => (s.makeDirty (s.window w).retiring).addAttention o .drained
    | none => s.makeDirty (s.window w).retiring) ?_ rfl
  split
  · exact h1.addAttention ⟨by decide, by decide⟩
  · exact h1

theorem State.Sound.endClearDrain (h : s.Sound) : s.endClearDrain.Sound := by
  unfold State.endClearDrain
  split
  · exact h
  · next c _ =>
    have h1 : State.Sound (State.restIf { ((s.makeDirty c.retiring).mapWindows fun w x =>
        if w ∈ c.closed then Window.vacantAt (x.gen + 1) else x) with clearRec := none } .clear) := by
      apply State.Sound.restIf
      exact (h.makeDirty c.retiring).congr rfl
    dsimp only
    split
    · exact h1.finish _ _ _
    · exact h1

theorem State.Sound.leaveClear (h : s.Sound) (m : Member) : (s.leaveClear m).Sound := by
  unfold State.leaveClear
  split
  · exact h
  · next c _ =>
    have h1 : State.Sound { s with clearRec := some { c with drain := c.drain.remove m } } := h.congr rfl
    split
    · dsimp only
      split
      · exact h1.endClearDrain
      · exact h1
    · exact h

theorem State.Sound.leaveWindow (h : s.Sound) (w : WSlot) (m : Member) : (s.leaveWindow w m).Sound := by
  have h1 : (s.updWindow w fun x => { x with drain := x.drain.remove m }).Sound := h.congr rfl
  unfold State.leaveWindow
  split
  · dsimp only
    split
    · exact h1.endDrain w
    · exact h1
  · exact h

theorem State.Sound.leave (h : s.Sound) (w : WSlot) (m : Member) : (s.leave w m).Sound := by
  unfold State.leave
  split
  · exact h.leaveClear m
  · exact h.leaveWindow w m

theorem State.Sound.abandonRelocation (h : s.Sound) (o : DrainOwner) (t : Extent) :
    (s.abandonRelocation o t).Sound := by
  have h1 : (s.updExtent t fun x => { x with st := .retiring }).Sound := h.updExtent (h.count_le t)
  have h2 : State.Sound { s.updExtent t (fun x => { x with st := .retiring }) with
    rle := s.rle.abandon o, abandonHanded := PortSet.all } := h1.congr rfl
  exact h2.addSupervisor .moved

theorem State.Sound.loseExtents (h : s.Sound) (w : WSlot) (l : List Extent) : (s.loseExtents w l).Sound := by
  have h1 : (s.mapExtents fun e x => if e ∈ l then { x with st := .retiring } else x).Sound :=
    h.mapExtents fun e => by split <;> exact h.count_le e
  unfold State.loseExtents
  have h2 := h1.congr (t := { s.mapExtents fun e x => if e ∈ l then { x with st := .retiring } else x with
    relocList := s.relocList.filter fun e => decide (e ∉ l) }) rfl
  dsimp only
  split
  · exact h2
  · exact h2.abandonRelocation _ _

theorem State.Sound.endDrainIfEmpty (h : s.Sound) (w : WSlot) : (s.endDrainIfEmpty w).Sound := by
  unfold State.endDrainIfEmpty
  split
  · exact h.endDrain w
  · exact h

theorem State.Sound.closeWindow (h : s.Sound) (c : Port) (forced : Bool) (w : WSlot) :
    (s.closeWindow c forced w).Sound := by
  have h3 := ((h.loseExtents w (s.window w).extents).addAttentionWhere (k := .views)
    (c := fun p => (s.window w).losesView forced p && decide (p ≠ c)) ⟨by decide, by decide⟩).addAttentionWhere
    (k := .offers) (c := fun p => (s.window w).offers p && decide (p ≠ c)) ⟨by decide, by decide⟩
  unfold State.closeWindow
  apply State.Sound.endDrainIfEmpty
  exact h3.congr rfl

theorem State.Sound.shrinkBy (h : s.Sound) (w : WSlot) (n : Nat) : (s.shrinkBy w n).Sound := by
  unfold State.shrinkBy
  apply State.Sound.endDrainIfEmpty
  exact (h.loseExtents w ((s.window w).extents.drop ((s.window w).extents.length - n))).congr rfl

theorem State.Sound.startRelocation (h : s.Sound) (src tgt : Extent) : (s.startRelocation src tgt).Sound := by
  have h1 : (s.updExtent src Entry.toMoving).Sound :=
    h.updExtent (by rw [Entry.toMoving_count]; exact h.count_le src)
  have h2 : ((s.updExtent src Entry.toMoving).updExtent tgt fun x => { x with st := .target }).Sound :=
    h1.updExtent (h1.count_le tgt)
  exact h2.congr rfl

theorem State.Sound.rleSettle (h : s.Sound) : s.rleSettle.Sound := by
  rcases s.rleSettle_cases with h' | ⟨_, _, h'⟩ | ⟨_, _, _, h'⟩ | ⟨src, _, tgt, _, _, _, _, h'⟩ <;> rw [h']
  · exact h
  · exact h.congr rfl
  · exact h.congr rfl
  · exact h.startRelocation src tgt

theorem State.Sound.wpeTake (h : s.Sound) : s.wpeTake.Sound := by
  rcases s.wpeTake_cases with h' | ⟨e, _, _, _, _, h'⟩ <;> rw [h']
  · exact h
  · have h1 : (s.updExtent e fun x => { x with st := .wiping }).Sound := h.updExtent (h.count_le e)
    exact h1.congr rfl

theorem State.wipeWaitAfter_le (h : s.wipeWait ≤ 16) (q : Requester) : s.wipeWaitAfter q ≤ 16 := by
  unfold State.wipeWaitAfter
  split
  · omega
  · split <;> omega

/-- A grant begins a unit only at a READY bank (section 7.3). -/
theorem State.Sound.grantMemory (h : s.Sound) : s.grantMemory.Sound := by
  unfold State.grantMemory
  split
  · next hdue =>
    split
    · next q _ =>
      obtain ⟨hmem, hkinds, hcounts, hslots, haccounts, hwait, -, hrefresh⟩ := h
      refine ⟨hmem, hkinds, hcounts, hslots, haccounts, State.wipeWaitAfter_le hwait q, fun hb => ?_, hrefresh⟩
      have : s.bankReady = false := hb
      simp [State.grantDue, this] at hdue
    · exact h
  · exact h

theorem State.Sound.settle (h : s.Sound) : s.settle.Sound := h.rleSettle.wpeTake.grantMemory

theorem State.Sound.endUnit (h : s.Sound) : s.endUnit.Sound := by
  obtain ⟨hmem, hkinds, hcounts, hslots, haccounts, hwait, -, hrefresh⟩ := h
  exact ⟨hmem, hkinds, hcounts, hslots, haccounts, hwait, fun _ => rfl, hrefresh⟩

theorem State.Sound.abortSlot (h : s.Sound) (p : Port) : (s.abortSlot p).Sound := by
  have h1 : (s.updPort p fun u => { u with slot := Slot.cleared }).Sound :=
    h.updPort fun _ => .of_slot rfl fun hp => by cases hp
  unfold State.abortSlot
  dsimp only
  split
  · refine State.Sound.congr (h1.mapPorts (f := fun _ u => match u.holdWait with
      | .absent => u
      | .present _ => { u with holdWait := .present false }) fun q _ => ?_) rfl
    split <;> exact .of_same rfl rfl
  · exact h1

theorem State.Sound.resetAccess (h : s.Sound) (p : Port) : (s.resetAccess p).Sound := by
  unfold State.resetAccess
  split
  · exact ((h.updPort fun _ => .of_same rfl rfl).leave _ _).endHoldWait p
  · exact h.updPort fun _ => .of_same rfl rfl
  · exact h
  · exact h

theorem State.Sound.closeOwned (h : s.Sound) (p c : Port) : (s.closeOwned p c).Sound := by
  have hall : ∀ (l : List WSlot) {u : State}, u.Sound →
      (l.foldl (fun t w => t.closeWindow c false w) u).Sound := by
    intro l
    induction l with
    | nil => exact id
    | cons w l ih => exact fun hu => ih (hu.closeWindow c false w)
  exact (hall (s.closeOrder p) h).congr rfl

theorem State.Sound.vacateAgent (h : s.Sound) (p c : Port) : (s.vacateAgent p c).Sound :=
  (h.addAttentionWhere (k := .grants) (c := fun o => s.sharesWith p o && decide (o ≠ c))
    ⟨by decide, by decide⟩).congr rfl

theorem State.Sound.resetPort (h : s.Sound) (p c : Port) : (s.resetPort p c).Sound := by
  have h2 : (((s.abortSlot p).resetAccess p).updPort p fun u =>
      { u with mask := 0, fault := none, response := none }).Sound :=
    ((h.abortSlot p).resetAccess p).updPort fun _ => .of_same rfl rfl
  refine ((h2.closeOwned p c).vacateAgent p c).updPort fun _ => ⟨fun he => ?_, fun he => ?_, id⟩ <;>
    simp [KindSet.has] at he

end SharedOperations

end Sys2Proof.Machine
end

section
/-!
When nothing is left to do at once: what `State.Settled` says of the arbiter and the engines, and why the settling
that ends a take makes it true (R29, R41, R123, R139, R140).
-/

namespace Sys2Proof.Machine

section Settled

/-- The parts of the state that `State.Settled` reads, beside the ports' accesses and the lists that may shrink. -/
structure Engines where
  resetn         : Bool
  bankReady      : Bool
  unit           : Option OpUnit
  refreshPending : Bool
  wpe            : Wpe
  relocList      : List Extent

/-- Those parts of a state. -/
def State.engines (s : State) : Engines :=
  { resetn := s.resetn, bankReady := s.bankReady, unit := s.unit, refreshPending := s.refreshPending, wpe := s.wpe
    relocList := s.relocList }

/-- The engines have nothing to start with (R29, R41, R139, R140). -/
def State.EnginesAtWork (s : State) : Prop :=
  (s.wpe = .idle → s.bankReady = true → s.wipeList = []) ∧
    (s.rle = .idle → s.relocList = []) ∧
    (s.rle = .waiting → s.relocList ≠ [] ∧ s.freeList = [])

/-- An engine record that presents a block, rests or waits only where `r` does. -/
def Rle.Calms (r r' : Rle) : Prop :=
  (r'.hasBlock = true → r.hasBlock = true) ∧ (r' = .idle → r = .idle) ∧ (r' = .waiting → r = .waiting)

theorem Rle.Calms.rfl {r : Rle} : r.Calms r := ⟨id, id, id⟩

theorem Rle.calms_cutover {src tgt : Extent} {ptr : Nat} {aw cl bu : PortSet} {sw : SwapState} {r : Rle} :
    r.Calms (.cutover src tgt ptr aw cl bu sw) := by
  refine ⟨fun h => ?_, fun h => ?_, fun h => ?_⟩ <;> cases h

variable {s t : State}

theorem State.portWaits_eq_true (s : State) (p : Port) :
    s.portWaits p = true ↔ (s.port p).access.presented = true ∧ ∀ m, s.unit ≠ some (.agent p m) := by
  have hunit : (match s.unit with | some (.agent q _) => decide (q ≠ p) | _ => true) = true ↔
      ∀ m, s.unit ≠ some (.agent p m) := by
    cases hu : s.unit with
    | none => simp
    | some u => cases u <;> simp
  rw [← hunit]
  unfold State.portWaits Access.presented
  cases (s.port p).access <;> simp <;> rfl

theorem mem_portsAfter : ∀ last p : Port, p ∈ portsAfter last := by decide

theorem State.pickPort_eq_none_iff (s : State) : s.pickPort = none ↔ ∀ p, s.portWaits p = false := by
  simp only [State.pickPort, List.findSome?_eq_none_iff, State.pickOfRank, List.find?_eq_none,
    List.mem_finRange, true_implies, Bool.and_eq_true, decide_eq_true_eq, not_and]
  constructor
  · intro h p
    by_contra hp
    exact h (s.account p).rank p (mem_portsAfter _ p) (by simpa using hp) rfl
  · intro h r p _ hp
    simp [h p] at hp

/-- The arbiter chooses nobody exactly where nobody waits (R124). -/
theorem State.pickRequester_eq_none_iff (s : State) :
    s.pickRequester = none ↔ s.wpeWaits = false ∧ s.rleWaits = false ∧ ∀ p, s.portWaits p = false := by
  have hagent : s.agentWaits = false ↔ ∀ p, s.portWaits p = false := by
    simp [State.agentWaits]
  rw [← hagent]
  unfold State.pickRequester
  cases hp : s.pickPort with
  | none =>
    have := hagent.2 (s.pickPort_eq_none_iff.1 hp)
    cases s.wpeWaits <;> cases s.rleWaits <;> by_cases hw : s.wipeWait = 16 <;> simp [this, hw]
  | some p =>
    have : s.agentWaits = true := by
      rw [← Bool.not_eq_false, hagent, ← s.pickPort_eq_none_iff, hp]
      exact nofun
    simp only [this]
    split
    · simp
    · split <;> simp

/-- Where the engines' parts stay, lists at most shrink and no port presents anew, nothing becomes due. -/
theorem State.Settled.mono (h : s.Settled) (he : t.engines = s.engines) (hr : s.rle.Calms t.rle)
    (hw : s.wipeList = [] → t.wipeList = []) (hf : s.freeList = [] → t.freeList = [])
    (ha : ∀ p, (t.port p).access.presented = true → (s.port p).access.presented = true) : t.Settled := by
  obtain ⟨hresetn, hready, hunit, hrefresh, hwpe, hreloc⟩ := Engines.mk.inj he
  obtain ⟨hblock, hidle, hwaiting⟩ := hr
  intro hn
  obtain ⟨hgrant, hwipe, hrest, hwait⟩ := h (hresetn ▸ hn)
  refine ⟨fun hdue => ?_, fun h1 h2 => hw (hwipe (hwpe ▸ h1) (hready ▸ h2)), fun h1 => ?_, fun h1 => ?_⟩
  · have hdue' : s.grantDue = true := by simpa [State.grantDue, hready, hunit, hrefresh] using hdue
    obtain ⟨h1, h2, h3⟩ := s.pickRequester_eq_none_iff.1 (hgrant hdue')
    refine t.pickRequester_eq_none_iff.2 ⟨?_, ?_, fun p => ?_⟩
    · simpa [State.wpeWaits, hwpe, hunit] using h1
    · simp only [State.rleWaits, Bool.and_eq_false_iff, hunit] at h2 ⊢
      exact h2.imp_left fun hb => Bool.eq_false_iff.2 fun hb' => absurd (hblock hb') (by simp [hb])
    · refine Bool.eq_false_iff.2 fun hp => absurd (h3 p) (Bool.not_eq_false _ ▸ ?_)
      rw [State.portWaits_eq_true, hunit] at hp
      exact (s.portWaits_eq_true p).2 ⟨ha p hp.1, hp.2⟩
  · exact hreloc ▸ hrest (hidle h1)
  · exact hreloc ▸ (hwait (hwaiting h1)).imp_right hf

theorem State.Settled.congr (h : s.Settled) (he : t.engines = s.engines) (hr : t.rle = s.rle)
    (hw : t.wipeList = s.wipeList) (hf : t.freeList = s.freeList)
    (ha : ∀ p, (t.port p).access = (s.port p).access) : t.Settled :=
  h.mono he (hr ▸ .rfl) (hw ▸ id) (hf ▸ id) fun p => (ha p) ▸ id

theorem State.Settled.enginesAtWork (h : s.Settled) (hn : s.resetn = false) : s.EnginesAtWork := (h hn).2

/-- After a grant the unit is in progress, and before one nobody waited (R123, R126). -/
theorem State.settled_grantMemory (h : s.resetn = false → s.EnginesAtWork) : s.grantMemory.Settled := by
  intro hn
  have hwork := h (by simpa using hn)
  refine ⟨fun hdue => ?_, by simpa [State.EnginesAtWork] using hwork⟩
  unfold State.grantMemory at hdue ⊢
  split
  · next hs =>
    simp only [hs, if_true] at hdue
    split
    · next q hq =>
      simp only [hq] at hdue
      have hunit : s.unitFor q = none := by
        simp only [State.grantDue, State.grantTo, Bool.and_eq_true] at hdue
        exact of_decide_eq_true hdue.1.2
      exfalso
      cases q with
      | port p => cases hunit
      | rle => cases hunit
      | wpe =>
        have hidle : s.wpe = .idle := by
          unfold State.unitFor at hunit
          cases hw : s.wpe <;> simp [hw] at hunit ⊢
        have hwpe : s.wpeWaits = false := by simp [State.wpeWaits, hidle]
        unfold State.pickRequester at hq
        simp only [hwpe, Bool.false_and, Bool.false_eq_true, if_false] at hq
        split at hq
        · cases hq
        · split at hq <;> cases hq
    · next hq => exact hq
  · next hs =>
    rw [if_neg hs] at hdue
    exact absurd hdue hs

/-- An IDLE Wipe Engine of a READY bank has nothing to take once it has taken (R41). -/
theorem State.wipeList_wpeTake (s : State) (h1 : s.wpeTake.wpe = .idle) (h2 : s.wpeTake.bankReady = true) :
    s.wpeTake.wipeList = [] := by
  rw [State.wpeTake_bankReady] at h2
  unfold State.wpeTake at h1 ⊢
  split at h1
  · cases h1
  · next hno =>
    cases hl : s.wipeList with
    | nil => simp
    | cons e rest => exact (hno e rest h1 h2 hl).elim

theorem State.enginesAtWork_wpeTake_rleSettle (s : State) : s.rleSettle.wpeTake.EnginesAtWork := by
  have hrle : (s.rleSettle.rle = .idle → s.rleSettle.relocList = []) ∧
      (s.rleSettle.rle = .waiting → s.rleSettle.relocList ≠ [] ∧ s.rleSettle.freeList = []) := by
    rcases s.rleSettle_cases with h' | ⟨_, hl, h'⟩ | ⟨_, hl, hf, h'⟩ | ⟨src, rest, tgt, free, hr, hl, hf, h'⟩
    · unfold State.rleSettle at h' ⊢
      split at h'
      case h_1 hi | h_2 hi =>
        split at h'
        · next hl => rw [hl]; simp
        · next hl hf => rw [hl]; simp [hf]
        · have := congrArg State.rle h'
          rw [hi] at this
          cases this
      all_goals next hi => simp [hi]
    · rw [h']; simp [hl]
    · rw [h']; simp [hl, hf]
    · rw [h']; simp [State.startRelocation]
  exact ⟨s.rleSettle.wipeList_wpeTake, by simpa using hrle⟩

end Settled

end Sys2Proof.Machine
end

section
/-!
The operations of requests, completions and supervision on sound records, and the records at power-on.
-/

namespace Sys2Proof.Machine

section RecordsInv

variable {s t : State}

theorem State.RecordsInv.sound (h : s.RecordsInv) : s.Sound := (s.recordsInv_iff.1 h).1

theorem State.RecordsInv.settled (h : s.RecordsInv) : s.Settled := (s.recordsInv_iff.1 h).2

theorem State.Sound.recordsInv (h : s.Sound) (hs : s.Settled) : s.RecordsInv := s.recordsInv_iff.2 ⟨h, hs⟩

/-- What follows a take at once leaves nothing due (log 2). -/
theorem State.Sound.recordsInv_settle (h : s.Sound) : s.settle.RecordsInv :=
  h.settle.recordsInv (State.settled_grantMemory fun _ => s.enginesAtWork_wpeTake_rleSettle)

theorem State.Sound.recordsInv_grantMemory (h : s.Sound) (hw : s.resetn = false → s.EnginesAtWork) :
    s.grantMemory.RecordsInv := h.grantMemory.recordsInv (State.settled_grantMemory hw)

theorem State.RecordsInv.congr (h : s.RecordsInv) (hr : t.registers = s.registers) (he : t.engines = s.engines)
    (hrle : t.rle = s.rle) (hw : t.wipeList = s.wipeList) (hf : t.freeList = s.freeList) : t.RecordsInv :=
  (h.sound.congr hr).recordsInv (h.settled.congr he hrle hw hf fun p => by
    rw [State.port_congr (congrArg Registers.ports hr)])

/-- A change of the engine's record that presents no new block and does not bring it to rest. -/
theorem State.RecordsInv.setRle (h : s.RecordsInv) {r : Rle} (hr : s.rle.Calms r) :
    State.RecordsInv { s with rle := r } :=
  have h1 : State.Sound { s with rle := r } := h.sound.congr rfl
  h1.recordsInv (h.settled.mono rfl hr id id fun _ => id)

theorem State.RecordsInv.updPort (h : s.RecordsInv) {p : Port} {f : PortUnit → PortUnit}
    (hf : p ≠ s.supervisor → (s.port p).Within (f (s.port p)))
    (ha : (f (s.port p)).access.presented = true → (s.port p).access.presented = true) :
    (s.updPort p f).RecordsInv := by
  refine (h.sound.updPort hf).recordsInv (h.settled.mono rfl .rfl id id fun q => ?_)
  rw [State.port_updPort]
  split
  · next he => subst he; exact ha
  · exact id

theorem State.RecordsInv.mapPorts (h : s.RecordsInv) {f : Port → PortUnit → PortUnit}
    (hf : ∀ p, p ≠ s.supervisor → (s.port p).Within (f p (s.port p)))
    (ha : ∀ p, (f p (s.port p)).access = (s.port p).access) : (s.mapPorts f).RecordsInv :=
  (h.sound.mapPorts hf).recordsInv (h.settled.congr rfl rfl rfl rfl fun q => by
    rw [State.port_mapPorts]; exact ha q)

theorem State.RecordsInv.addAttention (h : s.RecordsInv) {p : Port} {k : Kind} (hk : k.forAgents) :
    (s.addAttention p k).RecordsInv := h.updPort (fun _ => PortUnit.within_add _ hk) id

theorem State.RecordsInv.addAttentionWhere (h : s.RecordsInv) {c : Port → Bool} {k : Kind} (hk : k.forAgents) :
    (s.addAttentionWhere c k).RecordsInv := h.mapPorts (fun _ _ => PortUnit.within_addIf _ hk _) fun _ => rfl

theorem State.RecordsInv.recordFault (h : s.RecordsInv) (p : Port) (k : FaultKind) (a : Word) (b : Bool)
    (hd : Option Handle) : (s.recordFault p k a b hd).RecordsInv := by
  unfold State.recordFault
  split
  · exact State.RecordsInv.addAttention (h.updPort (fun _ => .of_same rfl rfl) id) ⟨by decide, by decide⟩
  · exact h.updPort (fun _ => .of_same rfl rfl) id

theorem State.RecordsInv.respond (h : s.RecordsInv) (p : Port) (c : BusCode) (d : Option Word) :
    (s.respond p c d).RecordsInv := h.updPort (fun _ => .of_same rfl rfl) id

theorem State.RecordsInv.deny (h : s.RecordsInv) (p : Port) (k : FaultKind) (r : Request) (hd : Option Handle) :
    (s.deny p k r hd).RecordsInv := (h.recordFault p k _ _ hd).respond p _ _

theorem State.RecordsInv.retry (h : s.RecordsInv) (p : Port) : (s.retry p).RecordsInv := h.respond p _ _

theorem State.RecordsInv.finish (h : s.RecordsInv) (p : Port) (st : Status) (res : Words4) :
    (s.finish p st res).RecordsInv := by
  refine State.RecordsInv.addAttention (h.updPort (fun _ => .of_slot rfl fun hp => ?_) id) ⟨by decide, by decide⟩
  cases hp

theorem State.RecordsInv.endHoldWait (h : s.RecordsInv) (q : Port) : (s.endHoldWait q).RecordsInv := by
  unfold State.endHoldWait
  split
  · exact h
  · have h1 := h.updPort (p := q) (f := fun u => { u with holdWait := .absent }) (fun _ => .of_same rfl rfl) id
    dsimp only
    split
    · exact h1.finish _ _ _
    · exact h1

theorem State.RecordsInv.tellOwner (h : s.RecordsInv) (w : WSlot) : (s.tellOwner w).RecordsInv := by
  unfold State.tellOwner
  split
  · exact h.addAttention ⟨by decide, by decide⟩
  · exact h

theorem State.RecordsInv.setWindows (h : s.RecordsInv) (ws : Vector Window 128) :
    State.RecordsInv { s with windows := ws } := h.congr rfl rfl rfl rfl rfl

end RecordsInv

section Requests

variable {s : State}

/-- An admission presents the access with the grant that follows, or stalls it (R47, R53). -/
theorem State.RecordsInv.admitAccess (h : s.RecordsInv) (p : Port) (a : AccessRec) :
    (s.admitAccess p a).RecordsInv := by
  have h1 : State.RecordsInv { s with abandonHanded := s.abandonHanded.erase p } := h.congr rfl rfl rfl rfl rfl
  unfold State.admitAccess
  dsimp only
  split
  · next b _ =>
    have h2 : State.Sound (State.updPort { s with abandonHanded := s.abandonHanded.erase p } p fun u =>
        { u with access := .issued b }) := h1.sound.updPort fun _ => .of_same rfl rfl
    exact h2.recordsInv_grantMemory fun hn => h1.settled.enginesAtWork hn
  · exact h1.updPort (fun _ => .of_same rfl rfl) fun hp => by cases hp
  · exact h1
  · exact h1

theorem State.RecordsInv.viewRequest (h : s.RecordsInv) (p : Port) (r : Request) :
    (s.viewRequest p r).RecordsInv := by
  have hsteps : (s.viewSteps p r).RecordsInv := by
    unfold State.viewSteps
    split
    · exact h.deny _ _ _ _
    · exact h.deny _ _ _ _
    · split
      · exact h.deny _ _ _ _
      · exact h.admitAccess _ _
  unfold State.viewRequest
  split
  · exact h.deny _ _ _ _
  · split
    · exact h.retry p
    · split
      · exact h.retry p
      all_goals exact hsteps

theorem State.RecordsInv.controlStore (h : s.RecordsInv) (p : Port) (offset : Nat) (value : Word) :
    (s.controlStore p offset value).RecordsInv := by
  unfold State.controlStore
  dsimp only
  split
  · split
    · exact h.retry p
    · refine State.RecordsInv.respond (h.updPort (fun _ => .of_slot rfl fun hp => ?_) id) _ _ _
      cases hp
  iterate 4
    · split
      · exact h.retry p
      · exact State.RecordsInv.respond (h.updPort (fun _ => .of_slot rfl id) id) _ _ _
  · refine State.RecordsInv.respond (h.updPort (fun _ => ⟨fun hm => ?_, fun hq => ?_, id⟩) id) _ _ _
    · simp only [KindSet.has, BitVec.getLsbD_and, Bool.and_eq_true] at hm
      exact hm.1
    · simp only [KindSet.has, BitVec.getLsbD_and, Bool.and_eq_true] at hq
      exact hq.1
  · exact State.RecordsInv.respond (h.updPort (fun _ => .of_same rfl rfl) id) _ _ _
  · exact State.RecordsInv.respond (h.updPort (fun _ => .of_same rfl rfl) id) _ _ _
  · exact h.respond _ _ _

theorem State.RecordsInv.takeRequest (h : s.RecordsInv) (p : Port) (r : Request) :
    (s.takeRequest p r).RecordsInv := by
  have h1 := h.updPort (p := p) (f := fun u => { u with response := none }) (fun _ => .of_same rfl rfl) id
  unfold State.takeRequest
  split
  · dsimp only
    split
    · unfold State.controlRequest
      split
      · exact h1.deny _ _ _ _
      · split
        · exact h1.deny _ _ _ _
        · split
          · exact h1.respond _ _ _
          · exact h1.controlStore _ _ _
    · exact h1.viewRequest p r
  · exact h

end Requests

section Completions

variable {s : State}

theorem State.performAccess_wf (h : Memory.wf s.mem = true) (a : AccessRec) (m : Option Extent) (x : Bits39) :
    Memory.wf (s.performAccess a m x).1 = true := by
  have h1 := Memory.disturb_wf s.epoch s.mem (s.bankAddr a.ext a.byteAddr) x h
  unfold State.performAccess
  dsimp only
  split
  · exact h1
  · split
    · exact Memory.writeBoth_wf _ _ _ _ h
    · split
      · exact Memory.writeBoth_wf _ _ _ _ h1
      · exact h1

theorem State.Sound.countCorrection (h : s.Sound) (e : Extent) : (s.countCorrection e).Sound := by
  unfold State.countCorrection
  dsimp only
  split
  · next hc =>
    have h1 : (s.updExtent e fun y => { y with count := y.count + 1 }).Sound := h.updExtent hc.2
    split
    · exact h1.congr rfl
    · exact h1
  · exact h

theorem State.Sound.report (h : s.Sound) (e : Extent) (o : Option WordRead) : (s.report e o).Sound := by
  unfold State.report
  split
  · exact h.countCorrection e
  · split
    · exact h.congr rfl
    · exact h
  all_goals exact h

theorem State.Sound.answerAccess (h : s.Sound) (p : Port) (a : AccessRec) (o : Option WordRead) :
    (s.answerAccess p a o).Sound := by
  unfold State.answerAccess
  dsimp only
  refine State.Sound.respond ?_ _ _ _
  split
  · exact h
  · exact h.recordFault _ _ _ _ _

theorem State.Sound.completeAccess (h : s.Sound) (p : Port) (a : AccessRec) (live : Bool) (m : Option Extent)
    (x : Bits39) : (s.completeAccess p a live m x).RecordsInv := by
  have h1 := ((h.setMem (State.performAccess_wf h.memWf a m x)).endUnit).report a.ext (s.performAccess a m x).2
  unfold State.completeAccess
  apply State.Sound.recordsInv_settle
  apply State.Sound.endHoldWait
  apply State.Sound.leave
  refine State.Sound.congr (State.Sound.updPort (s := if live then _ else _) (p := p)
    (f := fun u => { u with access := .idle }) ?_ fun _ => .of_same rfl rfl) rfl
  split
  · exact h1.answerAccess _ _ _
  · exact h1

theorem State.Sound.enterQuarantine (h : s.Sound) (e : Extent) (c : Cause) : (s.enterQuarantine e c).Sound :=
  State.Sound.addSupervisor (s := s.updExtent e fun x => { x with st := .quarantined c })
    (h.updExtent (h.count_le e)) .quarantined

theorem State.Sound.afterVerify (h : s.Sound) (e : Extent) (b : Nat) (failed : Bool) :
    (s.afterVerify e b failed).Sound := by
  unfold State.afterVerify State.wipeEnd
  split
  · exact h.congr rfl
  · dsimp only
    split
    · exact (h.enterQuarantine e .verify).congr rfl
    · have h1 : (s.updExtent e fun x => { x with st := .free, poisoned := false }).Sound :=
        h.updExtent (h.count_le e)
      exact h1.congr rfl

theorem State.Sound.copyBlock (h : s.Sound) (src tgt : Extent) (ptr : Nat) (ch : Vector Bits39 16) :
    (s.copyBlock src tgt ptr ch).Sound := by
  have h1 := (h.setMem (Memory.copyWords_wf s.epoch s.mem (s.blockAddr src ptr) (s.blockAddr tgt ptr) ch.toList
    h.memWf)).endUnit
  unfold State.copyBlock
  dsimp only
  refine State.Sound.mapPorts ?_ fun _ _ => .of_same rfl rfl
  split
  · exact h1.updExtent (h1.count_le tgt)
  · exact h1

theorem State.Sound.leaveOwner (h : s.Sound) (o : DrainOwner) : (s.leaveOwner o).Sound := by
  cases o with
  | window w => exact h.leaveWindow w .rle
  | clear => exact h.leaveClear .rle

/-- The extents of a swap: the target's count starts anew, MOVED and QUARANTINED go to the supervisor (R146). -/
theorem State.RecordsInv.swapExtents (h : s.RecordsInv) (src tgt : Extent) (hd : Handle) (i : Nat) :
    (s.swapExtents src tgt hd i).RecordsInv := by
  have h1 : State.Sound (s.updWindow hd.slot fun w => { w with extents := w.extents.set i tgt }) :=
    h.sound.congr rfl
  have h2 := h1.updExtent (e := tgt) (f := fun x => { x with st := .bound hd i, count := 0 }) (Nat.zero_le _)
  refine State.Sound.recordsInv ((h2.enterQuarantine src .relocated).addSupervisor .moved :)
    (h.settled.congr rfl rfl rfl rfl fun p => ?_)
  simp only [State.swapExtents, State.enterQuarantine, State.port_addAttention]
  repeat' split
  all_goals rfl

end Completions

section Supervision

variable {s : State}

theorem State.Sound.newThreshold (h : s.Sound) {n : Nat} (h1 : 1 ≤ n) (h15 : n ≤ 15) :
    (s.newThreshold n).Sound := by
  obtain ⟨hmem, hkinds, -, hslots, haccounts, harbiter⟩ := h
  refine ⟨hmem, hkinds, ⟨h1, h15, fun e => ?_⟩, hslots, haccounts, harbiter⟩
  show (((s.mapExtents fun _ x => { x with count := min x.count n }).entry e).count ≤ n)
  rw [State.entry_mapExtents]
  exact Nat.min_le_right _ _

theorem State.RecordsInv.updAccount (h : s.RecordsInv) {a : Port} {f : Account → Account}
    (hf : (f (s.account a)).windowQuota ≤ 16 ∧ (f (s.account a)).extentQuota ≤ 1024) :
    (s.updAccount a f).RecordsInv := by
  obtain ⟨hmem, hkinds, hcounts, hslots, haccounts, harbiter⟩ := h.sound
  refine State.Sound.recordsInv ⟨hmem, hkinds, hcounts, hslots, fun p => ?_, harbiter⟩
    (h.settled.congr rfl rfl rfl rfl fun _ => rfl)
  rw [State.account_updAccount]
  split
  · next he => subst he; exact hf
  · exact haccounts p

theorem State.RecordsInv.setHold (h : s.RecordsInv) (q : Port) : (s.setHold q).RecordsInv :=
  State.RecordsInv.addAttention (h.updPort (fun _ => .of_same rfl rfl) id) ⟨by decide, by decide⟩

theorem State.RecordsInv.resumePort (h : s.RecordsInv) (q : Port) : (s.resumePort q).RecordsInv := by
  have h1 := h.updPort (p := q) (f := fun u => { u with hold := false, holdWait := .absent })
    (fun _ => .of_same rfl rfl) id
  unfold State.resumePort
  dsimp only
  split
  · exact h1.addAttention ⟨by decide, by decide⟩
  · exact h1

theorem State.RecordsInv.quarantineExtent (h : s.RecordsInv) (e : Extent) : (s.quarantineExtent e).RecordsInv := by
  refine State.Sound.recordsInv ((h.sound.enterQuarantine e .supervisor).congr rfl)
    (h.settled.mono rfl .rfl (fun hl => ?_) (fun hl => ?_) fun p => ?_)
  · simp [State.quarantineExtent, hl]
  · simp [State.quarantineExtent, hl]
  · have : ((s.quarantineExtent e).port p).access = (s.port p).access := by
      show ((State.addAttention _ _ _).port p).access = _
      rw [State.port_addAttention]
      split <;> rfl
    rw [this]
    exact id

theorem Entry.clear_count (x : Entry) : x.clear.count = x.count := by
  unfold Entry.clear
  split <;> rfl

theorem State.Sound.clearTables (h : s.Sound) : s.clearTables.Sound := by
  have h1 : (s.mapPorts fun q u => if q = s.supervisor then u else u.clear).Sound := by
    refine h.mapPorts fun p hp => ?_
    rw [if_neg hp]
    exact ⟨fun he => by simp [PortUnit.clear, KindSet.has] at he,
      fun he => by simp [PortUnit.clear, KindSet.has] at he, fun he => by cases he⟩
  have h2 : State.Sound (((s.mapPorts fun q u => if q = s.supervisor then u else u.clear).mapWindows
      fun _ w => w.clear).mapExtents fun _ x => x.clear) := by
    refine State.Sound.mapExtents (h1.congr rfl) fun e => ?_
    rw [Entry.clear_count]
    exact h.count_le e
  unfold State.clearTables
  dsimp only
  split
  · exact State.Sound.addSupervisor (h2.congr rfl) .moved
  · exact h2.congr rfl

end Supervision

section WindowCommands

variable {s : State}

theorem State.RecordsInv.openAt (h : s.RecordsInv) (p : Port) (w : WSlot) (n base : Nat) :
    (s.openAt p w n base).RecordsInv := by
  have h1 : (s.bindExtents (s.handleOf w) 0 (s.freeList.take n)).Sound :=
    h.sound.mapExtents fun e => by
      split
      · exact Nat.zero_le _
      · exact h.sound.count_le e
  refine State.Sound.recordsInv (h1.congr rfl) (h.settled.mono rfl .rfl id (fun hl => ?_) fun _ => id)
  simp [State.openAt, hl]

theorem State.RecordsInv.growBy (h : s.RecordsInv) (w : WSlot) (n : Nat) : (s.growBy w n).RecordsInv := by
  have h1 : (s.bindExtents (s.handleOf w) (s.window w).extents.length (s.freeList.take n)).Sound :=
    h.sound.mapExtents fun e => by
      split
      · exact Nat.zero_le _
      · exact h.sound.count_le e
  refine State.Sound.recordsInv (h1.congr rfl) (h.settled.mono rfl .rfl id (fun hl => ?_) fun _ => id)
  simp [State.growBy, hl]

end WindowCommands

section PowerOn

@[simp] theorem Tab.get_ofFn {α : Type} {n : Nat} (f : Fin n → α) (i : Fin n) : Tab.get (Vector.ofFn f) i = f i := by
  simp [Tab.get]

@[simp] theorem Tab.get_replicate {α : Type} {n : Nat} (a : α) (i : Fin n) :
    Tab.get (Vector.replicate n a) i = a := by
  simp [Tab.get]

variable (k : Straps) (pins : PortSet) (queue : List Instr) (epoch idx : Nat)

theorem State.port_powerOn (p : Port) :
    (State.powerOn k pins queue epoch idx).port p = PortUnit.powerOn (pins.has p) := Tab.get_ofFn _ p

theorem State.window_powerOn (w : WSlot) :
    (State.powerOn k pins queue epoch idx).window w = Window.vacantAt 0 := Tab.get_replicate _ w

theorem State.entry_powerOn (e : Extent) :
    (State.powerOn k pins queue epoch idx).entry e = { st := .dirty, count := 0, poisoned := false } :=
  Tab.get_replicate _ e

theorem State.account_powerOn (p : Port) :
    (State.powerOn k pins queue epoch idx).account p =
      if p = k.supervisor then { windowQuota := 16, extentQuota := 1024, rank := 2 }
      else { windowQuota := 0, extentQuota := 0, rank := 2 } := Tab.get_ofFn _ p

theorem State.recordsInv_powerOn : (State.powerOn k pins queue epoch idx).RecordsInv := by
  refine State.Sound.recordsInv ⟨rfl, fun p _ => ?_, ⟨(by decide : 1 ≤ 4), (by decide : 4 ≤ 15), fun e => ?_⟩,
    fun p hp => ?_, fun p => ?_, Nat.zero_le 16, fun _ => rfl, fun _ hr => by cases hr⟩
    fun _ => ⟨fun hd => ?_, fun _ hb => ?_, fun _ => rfl,
      fun hw => by cases hw⟩
  · rw [State.port_powerOn]
    simp [PortUnit.powerOn, KindSet.has]
  · rw [State.entry_powerOn]
    exact Nat.zero_le _
  · rw [State.port_powerOn] at hp
    cases hp
  · rw [State.account_powerOn]
    split <;> exact ⟨by decide, by decide⟩
  · cases hd
  · cases hb

end PowerOn

end Sys2Proof.Machine
end

section
namespace Sys2Proof.Machine

section Commands

variable {s t : State}

/-- A command taken at the Window Directory keeps the records sound where its verdict does; one that stays in
progress is the supervisor's (R69). -/
theorem State.RecordsInv.take {p : Port} {isCode : BitVec 8 → Bool} {body : State → Verdict} (h : s.RecordsInv)
    (ht : s.takeCommand p isCode body = .next t)
    (hbody : ∀ u : State, u.RecordsInv →
      (body u).All State.RecordsInv fun v => v.RecordsInv ∧ p = v.supervisor) : t.RecordsInv := by
  have hserved : (s.served p).RecordsInv := h.congr rfl rfl rfl rfl rfl
  refine State.takeCommand_keeps h hserved (fun u st res hu => hu.finish p st res) (fun u hu => ?_)
    (fun _ => hbody _ hserved) ht
  exact hu.1.updPort (fun hne => absurd hu.2 hne) id

theorem State.supervisor_settle (s : State) : s.settle.supervisor = s.supervisor := by
  simp [State.supervisor]

theorem holdVerdict_records {p : Port} (h : s.RecordsInv) (hp : p = s.supervisor) :
    (holdVerdict p s).All State.RecordsInv fun v => v.RecordsInv ∧ p = v.supervisor :=
  holdVerdict_all h h.setHold fun q => ⟨(h.setHold q).updPort (fun _ => .of_same rfl rfl) id, hp⟩

theorem clearVerdict_records {p : Port} (h : s.RecordsInv) (hp : p = s.supervisor) :
    (clearVerdict s).All State.RecordsInv fun v => v.RecordsInv ∧ p = v.supervisor := by
  have hc : ∀ c, State.Sound { s.clearTables with clearRec := c } := fun c => h.sound.clearTables.congr rfl
  refine clearVerdict_all (hc _).endClearDrain.recordsInv_settle fun _ => ⟨(hc _).recordsInv_settle, ?_⟩
  rw [State.supervisor_settle]
  have : s.clearTables.supervisor = s.supervisor := by
    unfold State.clearTables
    dsimp only
    split <;> rfl
  exact hp.trans this.symm

theorem execArstnAssert_records {p : Port} (h : s.RecordsInv) (ht : execArstnAssert p s = .next t) :
    t.RecordsInv := by
  have h1 := h.updPort (p := p) (f := fun u => { u with arstn := true }) (fun _ => .of_same rfl rfl) id
  unfold execArstnAssert at ht
  dsimp only at ht
  split at ht
  · cases ht; exact h
  · split at ht
    · cases ht; exact h1
    · cases ht; exact (h1.sound.resetPort p p).recordsInv_settle

theorem execResetnAssert_records (h : s.RecordsInv) (ht : execResetnAssert s = .next t) : t.RecordsInv := by
  unfold execResetnAssert at ht
  split at ht
  · cases ht; exact h
  · cases ht
    obtain ⟨-, hkinds, hcounts, hslots, haccounts, hwait, -, -⟩ :=
      h.sound.mapPorts (f := fun _ u => u.abandonRequest) fun _ _ => .of_same rfl rfl
    exact State.Sound.recordsInv ⟨rfl, hkinds, hcounts, hslots, haccounts, hwait, fun _ => rfl,
      fun hn => by cases hn⟩ fun hn => by cases hn

theorem execAccessCompletion_records {p : Port} {x : Bits39} (h : s.RecordsInv)
    (ht : execAccessCompletion p x s = .next t) : t.RecordsInv := by
  unfold execAccessCompletion at ht
  split at ht
  · split at ht
    · cases ht; exact h.sound.completeAccess _ _ _ _ _
    · cases ht; exact h
  · split at ht
    · cases ht; exact h.sound.completeAccess _ _ _ _ _
    · cases ht; exact h
  · cases ht; exact h

theorem execTick_records (h : s.RecordsInv) (ht : execTick s = .next t) : t.RecordsInv := by
  unfold execTick at ht
  split at ht
  · cases ht; exact h
  · cases ht
    exact ((h.addAttentionWhere ⟨by decide, by decide⟩).addAttentionWhere ⟨by decide, by decide⟩).setWindows _

theorem execOfferExpiry_records {w : WSlot} {k : GSlot} (h : s.RecordsInv)
    (ht : execOfferExpiry w k s = .next t) : t.RecordsInv := by
  unfold execOfferExpiry at ht
  split at ht
  · cases ht
    split
    · exact h
    · exact State.RecordsInv.tellOwner
        (State.RecordsInv.addAttention (h.setWindows _) ⟨by decide, by decide⟩) w
  all_goals cases ht; exact h

theorem execInitializationComplete_records (h : s.RecordsInv)
    (ht : execInitializationComplete s = .next t) : t.RecordsInv := by
  unfold execInitializationComplete at ht
  split at ht
  · cases ht; exact h
  · cases ht
    obtain ⟨hmem, hkinds, hcounts, hslots, haccounts, hwait, -, hrefresh⟩ := h.sound
    refine State.Sound.recordsInv_settle ⟨hmem, hkinds, hcounts, hslots, haccounts, hwait, fun hb => ?_, fun _ _ => rfl⟩
    cases hb

theorem execRefresh_records (h : s.RecordsInv) (ht : execRefresh s = .next t) : t.RecordsInv := by
  unfold execRefresh at ht
  split at ht
  · cases ht; exact h
  · next hc =>
    cases ht
    obtain ⟨hmem, hkinds, hcounts, hslots, haccounts, hwait, hunit, -⟩ := h.sound
    simp only [Bool.or_eq_true, Bool.not_eq_true', not_or, Bool.not_eq_true, Bool.not_eq_false] at hc
    refine State.Sound.recordsInv ⟨hmem, hkinds, hcounts, hslots, haccounts, hwait, hunit, fun _ _ => hc.2⟩
      fun hn => ⟨fun hdue => ?_, (h.settled hn).2⟩
    simp [State.grantDue] at hdue

theorem execMemoryGrant_records (h : s.RecordsInv) (ht : execMemoryGrant s = .next t) : t.RecordsInv := by
  unfold execMemoryGrant at ht
  split at ht
  · cases ht; exact h
  · cases ht
    obtain ⟨hmem, hkinds, hcounts, hslots, haccounts, hwait, hunit, hrefresh⟩ := h.sound
    rw [State.endRefresh_eq]
    refine State.Sound.recordsInv_grantMemory ⟨hmem, hkinds, hcounts, hslots, haccounts, hwait, hunit,
      fun hn hp => hrefresh hn ?_⟩ fun hn => (h.settled hn).2
    simp only [Bool.and_eq_true] at hp
    exact hp.1

theorem execWpeTake_records (h : s.RecordsInv) (ht : execWpeTake s = .next t) : t.RecordsInv := by
  unfold execWpeTake at ht
  split at ht
  · cases ht; exact h
  · cases ht
    refine h.sound.wpeTake.recordsInv_grantMemory fun hn => ⟨s.wipeList_wpeTake, ?_⟩
    simpa using (h.settled.enginesAtWork (by simpa using hn)).2

theorem execWipeBlockComplete_records (h : s.RecordsInv) (ht : execWipeBlockComplete s = .next t) :
    t.RecordsInv := by
  unfold execWipeBlockComplete at ht
  split at ht
  · next e b hn _ _ =>
    cases ht
    have h1 := ((h.sound.setMem (Memory.wipeWords_wf s.mem (s.blockAddr e b) 16 h.sound.memWf)).endUnit).congr
      (t := State.endUnit { s with
        mem := Memory.wipeWords s.mem (s.blockAddr e b) 16, wpe := s.wpeAfterWipe e b }) rfl
    refine h1.recordsInv_grantMemory fun _ => ⟨fun hi => ?_, (h.settled hn).2.2⟩
    have : s.wpeAfterWipe e b = .idle := hi
    unfold State.wpeAfterWipe at this
    split at this <;> cases this
  · cases ht; exact h

theorem execVerifyBlockComplete_records {x : Vector Bits39 16} (h : s.RecordsInv)
    (ht : execVerifyBlockComplete x s = .next t) : t.RecordsInv := by
  unfold execVerifyBlockComplete at ht
  split at ht
  · next e b f _ _ _ =>
    cases ht
    exact (((h.sound.setMem (Memory.verifyWords_wf s.epoch s.mem (s.blockAddr e b) x.toList
      h.sound.memWf)).endUnit).afterVerify e b _).recordsInv_settle
  · cases ht; exact h

theorem execRelocationStart_records (h : s.RecordsInv) (ht : execRelocationStart s = .next t) : t.RecordsInv := by
  unfold execRelocationStart at ht
  split at ht
  · cases ht; exact (h.sound.startRelocation _ _).recordsInv_settle
  · cases ht; exact (h.sound.startRelocation _ _).recordsInv_settle
  · cases ht; exact h

theorem execBlockCopyComplete_records {x : Vector Bits39 16} (h : s.RecordsInv)
    (ht : execBlockCopyComplete x s = .next t) : t.RecordsInv := by
  unfold execBlockCopyComplete at ht
  split at ht
  · next src tgt ptr _ _ _ =>
    cases ht
    apply State.Sound.recordsInv_settle
    exact (h.sound.copyBlock src tgt ptr x).congr rfl
  · next src tgt ptr o _ _ _ =>
    cases ht
    apply State.Sound.recordsInv_settle
    apply State.Sound.leaveOwner
    exact (h.sound.copyBlock src tgt ptr x).congr rfl
  · cases ht; exact h

theorem execSwap_records (h : s.RecordsInv) (ht : execSwap s = .next t) : t.RecordsInv := by
  unfold execSwap at ht
  split at ht
  · split at ht
    · cases ht; exact (h.swapExtents _ _ _ _).setRle Rle.calms_cutover
    all_goals cases ht; exact h
  · cases ht; exact h

/-- A port's take of a swap or of an abandonment presents the released access with the grant that follows. -/
theorem State.RecordsInv.release (h : s.RecordsInv) {p : Port} {f : AccessRec → AccessRec} {r : Rle} {ah : PortSet}
    (hr : s.rle.Calms r) :
    (State.grantMemory { s.updPort p (fun u => { u with access := u.access.releaseCutover f }) with
      rle := r, abandonHanded := ah }).RecordsInv := by
  have h1 : (s.updPort p fun u => { u with access := u.access.releaseCutover f }).Sound :=
    h.sound.updPort fun _ => .of_same rfl rfl
  refine State.Sound.recordsInv_grantMemory (h1.congr rfl) fun hn => ?_
  obtain ⟨hwipe, hidle, hwait⟩ := h.settled.enginesAtWork hn
  exact ⟨hwipe, fun hi => hidle (hr.2.1 hi), fun hw => hwait (hr.2.2 hw)⟩

theorem execPortSwapTake_records {p : Port} (h : s.RecordsInv) (ht : execPortSwapTake p s = .next t) :
    t.RecordsInv := by
  unfold execPortSwapTake at ht
  split at ht
  · split at ht
    · cases ht; exact h.release Rle.calms_cutover
    · cases ht; exact h
  · cases ht; exact h

theorem execSwapAcknowledge_records {p : Port} (h : s.RecordsInv) (ht : execSwapAcknowledge p s = .next t) :
    t.RecordsInv := by
  unfold execSwapAcknowledge at ht
  split at ht
  · split at ht
    · split at ht
      · cases ht
        apply State.Sound.recordsInv_settle
        exact h.sound.congr rfl
      · cases ht; exact h.setRle Rle.calms_cutover
    · cases ht; exact h
  · cases ht; exact h

theorem Rle.calms_takeAnswer (r : Rle) (p : Port) : r.Calms (r.takeAnswer p) := by
  unfold Rle.takeAnswer
  split
  · split <;> exact Rle.calms_cutover
  all_goals exact .rfl

theorem execCutoverAnswer_records {p : Port} (h : s.RecordsInv) (ht : execCutoverAnswer p s = .next t) :
    t.RecordsInv := by
  unfold execCutoverAnswer at ht
  split at ht
  · cases ht; exact h
  · cases ht; exact h.setRle (Rle.calms_takeAnswer _ p)

theorem execAbandonmentTake_records {p : Port} (h : s.RecordsInv) (ht : execAbandonmentTake p s = .next t) :
    t.RecordsInv := by
  unfold execAbandonmentTake at ht
  split at ht
  · cases ht; exact h.release (r := s.rle) .rfl
  · cases ht; exact h

/-- The verdict of every command taken at the Window Directory keeps the records sound. -/
theorem taken_records {c : Instr} {p : Port} {isCode : BitVec 8 → Bool} {body : State → Verdict}
    (hc : takenCommand c = some (p, isCode, body)) (h : s.RecordsInv) :
    (body s).All State.RecordsInv fun v => v.RecordsInv ∧ p = v.supervisor := by
  have attention : Kind.forAgents .offers := ⟨by decide, by decide⟩
  cases c with
  | undefinedCommand p => cases hc; exact True.intro
  | openWindow p => cases hc; exact openVerdict_all fun w n base _ _ _ _ _ _ _ _ => h.openAt p w n base
  | grow p => cases hc; exact growVerdict_all fun w n _ _ _ _ _ _ _ => h.growBy w n
  | shrink p => cases hc; exact shrinkVerdict_all fun w n _ _ _ => (h.sound.shrinkBy w n).recordsInv_settle
  | close p => cases hc; exact closeVerdict_all fun w _ => (h.sound.closeWindow p false w).recordsInv_settle
  | offer p =>
    cases hc
    exact offerVerdict_all h fun w k a r l _ _ _ _ _ =>
      State.RecordsInv.addAttention (h.setWindows _) attention
  | withdraw p =>
    cases hc
    exact withdrawVerdict_all fun w k a _ =>
      State.RecordsInv.addAttention (h.setWindows _) attention
  | accept p =>
    cases hc
    exact acceptVerdict_all fun w k r l b _ _ _ _ _ =>
      State.RecordsInv.tellOwner (h.setWindows _) w
  | decline p => cases hc; exact declineVerdict_all fun w k _ => State.RecordsInv.tellOwner (h.setWindows _) w
  | revoke p =>
    cases hc
    exact revokeVerdict_all fun w k a _ _ _ =>
      (State.RecordsInv.addAttentionWhere (h.setWindows _) ⟨by decide, by decide⟩).addAttentionWhere
        ⟨by decide, by decide⟩
  | release p =>
    cases hc
    exact releaseVerdict_all fun w k _ _ =>
      ⟨h.setWindows _, State.RecordsInv.tellOwner (h.setWindows _) w⟩
  | readWindow p => cases hc; exact readWindowVerdict_all h
  | readGrant p => cases hc; exact readGrantVerdict_all h
  | readView p => cases hc; exact readViewVerdict_all h
  | readOffer p => cases hc; exact readOfferVerdict_all h
  | readAccount p => cases hc; exact h
  | setQuota p =>
    cases hc
    exact supervisorOnly_all fun _ => setQuotaVerdict_all fun a n m hn hm =>
      h.updAccount ⟨hn, hm⟩
  | setRank p =>
    cases hc
    exact supervisorOnly_all fun _ => setRankVerdict_all fun a r =>
      h.updAccount (h.sound.2.2.2.2.1 a)
  | setThreshold p =>
    cases hc
    exact supervisorOnly_all fun _ => setThresholdVerdict_all fun n h1 h15 =>
      (h.sound.newThreshold h1 h15).recordsInv_settle
  | hold p => cases hc; exact supervisorOnly_all fun hp => holdVerdict_records h hp
  | resume p => cases hc; exact supervisorOnly_all fun _ => resumeVerdict_all fun q => h.resumePort q
  | resetPort p =>
    cases hc
    exact supervisorOnly_all fun _ => resetPortVerdict_all fun q =>
      (h.sound.resetPort q p).recordsInv_settle
  | forceClose p =>
    cases hc
    exact supervisorOnly_all fun _ => forceCloseVerdict_all fun w _ =>
      (h.sound.closeWindow p true w).recordsInv_settle
  | migrate p =>
    cases hc
    refine supervisorOnly_all fun _ => migrateVerdict_all fun e _ _ => ?_
    apply State.Sound.recordsInv_settle
    exact h.sound.congr rfl
  | quarantine p => cases hc; exact supervisorOnly_all fun _ => quarantineVerdict_all fun e _ => h.quarantineExtent e
  | restore p =>
    cases hc
    exact supervisorOnly_all fun _ => restoreVerdict_all fun e _ =>
      (h.sound.makeDirty [e]).recordsInv_settle
  | readExtent p => cases hc; exact supervisorOnly_all fun _ => readExtentVerdict_all h
  | readPool p => cases hc; exact supervisorOnly_all fun _ => h
  | clear p => cases hc; exact supervisorOnly_all fun hp => clearVerdict_records h hp
  | _ => cases hc

/-- Every command keeps the records sound and leaves nothing due. -/
theorem exec_records {c : Instr} (h : s.RecordsInv) (ht : exec c s = .next t) : t.RecordsInv := by
  rcases hc : takenCommand c with _ | ⟨p, isCode, body⟩
  case some => exact h.take (exec_of_taken hc s ▸ ht) fun u hu => taken_records hc hu
  cases c with
  | resetnRelease k => cases ht; exact State.recordsInv_powerOn _ _ _ _ _
  | resetnAssert => exact execResetnAssert_records h ht
  | arstnAssert p => exact execArstnAssert_records h ht
  | arstnRelease p => cases ht; exact h.updPort (fun _ => .of_same rfl rfl) id
  | viewSpaceRequest p r | controlImageRefused p r | controlWordWrite p r => cases ht; exact h.takeRequest p r
  | attentionWordWrite p v | noticeWordWrite p v | faultRecordClear p v | commandIssue p v =>
    cases ht; exact h.takeRequest p _
  | accessCompletion p x => exact execAccessCompletion_records h ht
  | drainEnd w =>
    simp only [exec, execDrainEnd] at ht
    split at ht <;> cases ht
    · exact (h.sound.endDrain w).recordsInv_settle
    · exact h
  | clearDrainEnd =>
    simp only [exec, execClearDrainEnd] at ht
    split at ht <;> cases ht
    · exact h.sound.endClearDrain.recordsInv_settle
    · exact h
  | holdFinish q =>
    simp only [exec, execHoldFinish] at ht
    split at ht <;> cases ht
    · exact h.endHoldWait q
    · exact h
  | tick => exact execTick_records h ht
  | offerExpiry w k => exact execOfferExpiry_records h ht
  | initializationComplete => exact execInitializationComplete_records h ht
  | refresh => exact execRefresh_records h ht
  | memoryGrant => exact execMemoryGrant_records h ht
  | wpeTake => exact execWpeTake_records h ht
  | wipeBlockComplete => exact execWipeBlockComplete_records h ht
  | verifyBlockComplete x => exact execVerifyBlockComplete_records h ht
  | relocationStart => exact execRelocationStart_records h ht
  | blockCopyComplete x => exact execBlockCopyComplete_records h ht
  | swap => exact execSwap_records h ht
  | portSwapTake p => exact execPortSwapTake_records h ht
  | swapAcknowledge p => exact execSwapAcknowledge_records h ht
  | cutoverAnswer p => exact execCutoverAnswer_records h ht
  | abandonmentTake p => exact execAbandonmentTake_records h ht
  | _ => cases hc

/-- Settles O57: each shared operation keeps `State.Sound`, and what follows a take at once leaves the part
settled. -/
theorem stepsKeepRecordsSound : Obligations.StepsKeepRecordsSound := by
  intro s t h ht
  rcases step_cases ht with rfl | ⟨c, rest, -, hc⟩
  · exact h
  · have h1 : State.RecordsInv { s with pending := rest } := h.congr rfl rfl rfl rfl rfl
    exact exec_records h1 hc

end Commands

end Sys2Proof.Machine
end

section
/-!
Handles, the lookup of a view and the power-on state (O3, O18, O9).
-/

namespace Sys2Proof.Machine

section PowerOnState

theorem State.wipeList_powerOn (k : Straps) (pins : PortSet) (queue : List Instr) (epoch idx : Nat) :
    (State.powerOn k pins queue epoch idx).wipeList = List.finRange 1024 := by
  rw [State.powerOn]

/-- Settles O3: every part of the state that a release leaves is read off `State.powerOn`. -/
theorem releaseGivesPowerOnState : Obligations.ReleaseGivesPowerOnState := by
  intro k s
  refine ⟨_, rfl, rfl, rfl, rfl, fun w => State.window_powerOn _ _ _ _ _ w, fun p => ?_, fun p => ?_,
    fun e => State.entry_powerOn _ _ _ _ _ e, rfl, State.wipeList_powerOn _ _ _ _ _, rfl, rfl, rfl, rfl, rfl, rfl, rfl,
    rfl,
    fun r => Tab.get_replicate _ r, rfl, rfl, rfl⟩
  · rw [State.port_powerOn, State.arstnPins, PortSet.has_of]
  · exact State.account_powerOn _ _ _ _ _ p

end PowerOnState

section Handles

/-- The handle that bits 15:0 of a word spell (R7). -/
theorem handleArg_eq_some_iff (a : Word) (h : Handle) :
    handleArg a = some h ↔ field a 7 1 = 0 ∧ field a 0 7 = h.slot.val ∧ field a 8 8 = h.gen.toNat := by
  obtain ⟨gen, slot⟩ := h
  have hgen : BitVec.ofNat 8 (a.toNat / 256) = gen ↔ a.toNat / 256 % 256 = gen.toNat := by
    rw [← BitVec.toNat_inj, BitVec.toNat_ofNat]
  unfold handleArg field
  split
  · next hb =>
    simp only [reduceCtorEq, false_iff]
    omega
  · next hb =>
    simp only [Option.some.injEq, Handle.mk.injEq, hgen, Fin.ext_iff]
    have hbit : a.toNat / 128 % 2 = 0 := by omega
    norm_num
    tauto

/-- Settles O18: a handle names the slot it spells where the slot is in use with that generation. -/
theorem handleValidity : Obligations.HandleValidity := by
  intro s a w
  have hcase : validHandle s a = some w ↔
      ∃ h, handleArg a = some h ∧ h.slot = w ∧ (s.window w).state ≠ .vacant ∧ (s.window w).gen = h.gen := by
    unfold validHandle
    cases handleArg a with
    | none => simp
    | some h =>
      simp only [Option.some.injEq, exists_eq_left', Option.ite_none_right_eq_some]
      constructor
      · rintro ⟨⟨h1, h2⟩, rfl⟩
        exact ⟨rfl, h1, h2⟩
      · rintro ⟨rfl, h1, h2⟩
        exact ⟨⟨h1, h2⟩, rfl⟩
  rw [hcase]
  constructor
  · rintro ⟨h, ha, rfl, h1, h2⟩
    obtain ⟨hbit, hslot, hgen⟩ := (handleArg_eq_some_iff a h).1 ha
    exact ⟨hbit, hslot, h1, h2 ▸ hgen⟩
  · rintro ⟨hbit, hslot, h1, hgen⟩
    exact ⟨s.handleOf w, (handleArg_eq_some_iff a _).2 ⟨hbit, hslot, hgen⟩, rfl, h1, rfl⟩

end Handles

section Views

variable {s : State}

/-- What a view says of its window (R13): its place there, the window's length for views, and its grant slot. -/
theorem State.viewAt_eq_some {a : Port} {w : WSlot} {k : GSlot} {v : View} (h : s.viewAt a w k = some v) :
    v.window = w ∧ v.slot = k ∧ v.len = (s.window w).viewLen ∧
      (s.window w).grant k =
        if v.revoked = true then .revoked a v.rights v.base else .active a v.rights v.base := by
  unfold State.viewAt at h
  split at h
  · next hg =>
    split at h
    · next hb => cases h; exact ⟨rfl, rfl, rfl, by simpa [hb] using hg⟩
    · cases h
  · next hg =>
    split at h
    · next hb => cases h; exact ⟨rfl, rfl, rfl, by simpa [hb] using hg⟩
    · cases h
  · cases h
  · cases h

theorem State.mem_viewsOf {a : Port} {v : View} : v ∈ s.viewsOf a ↔ ∃ w k, s.viewAt a w k = some v := by
  simp [State.viewsOf]

theorem State.meets_symm (s : State) (u v : View) : s.meets u.base u.len v = s.meets v.base v.len u := by
  simp only [State.meets, Bool.and_comm]

/-- Two views of one agent that cover the same offset are the same view (R14). -/
theorem State.ViewsOk.eq_of_covers (h : s.ViewsOk) {p : Port} {off : Nat} {u v : View} (hu : u ∈ s.viewsOf p)
    (hv : v ∈ s.viewsOf p) (hcu : s.covers u off = true) (hcv : s.covers v off = true) : u = v := by
  obtain ⟨-, -, hapart⟩ := h p
  by_contra hne
  have : Std.Symm fun u v : View => s.meets u.base u.len v = false := ⟨fun x y hxy => by rwa [s.meets_symm]⟩
  have hm : s.meets u.base u.len v = false := hapart.forall hu hv hne
  simp only [State.covers, State.meets, Bool.and_eq_true, Bool.and_eq_false_iff, decide_eq_true_eq,
    decide_eq_false_iff_not] at hcu hcv hm
  omega

/-- With the views well placed the lookup finds the one that covers the offset. -/
theorem State.find_covering (h : s.ViewsOk) {p : Port} {off : Nat} {v : View} (hv : v ∈ s.viewsOf p)
    (hc : s.covers v off = true) : (s.viewsOf p).find? (fun v => s.covers v off) = some v := by
  cases hf : (s.viewsOf p).find? fun v => s.covers v off with
  | none => exact absurd hc (List.find?_eq_none.1 hf v hv)
  | some u =>
    have hcu : s.covers u off = true := by simpa using List.find?_some hf
    rw [h.eq_of_covers (List.mem_of_find?_eq_some hf) hv hcu hc]

/-- An ACTIVE view stands in an OPEN window (R4). -/
theorem Window.Wf.opened_of_active {x : Window} (h : x.Wf) {k : GSlot} (hk : (x.grant k).isActive = true) :
    x.state = .opened := by
  obtain ⟨-, -, -, hclosed, -⟩ := h
  by_contra hne
  simp [((hclosed hne).2 k).1] at hk

/-- The extent list of an ACTIVE view's window holds the ordinal of every offset the view covers (R20). -/
theorem State.extent_of_covers (hwf : s.WindowsWf) {p : Port} {off : Nat} {v : View} (hv : v ∈ s.viewsOf p)
    (hc : s.covers v off = true) (hr : v.revoked = false) :
    (off - v.base) / s.extentBytes < (s.window v.window).extents.length := by
  obtain ⟨w, k, hat⟩ := State.mem_viewsOf.1 hv
  obtain ⟨rfl, -, hlen, hgrant⟩ := State.viewAt_eq_some hat
  rw [hr] at hgrant
  have hopen : (s.window v.window).state = .opened :=
    (hwf.1 v.window).opened_of_active (k := k) (by simp [hgrant, Grant.isActive])
  have hlen' : v.len = (s.window v.window).extents.length := by simp [hlen, Window.viewLen, hopen]
  rw [← hlen']
  simp only [State.covers, Bool.and_eq_true, decide_eq_true_eq] at hc
  have hpos : 0 < s.extentBytes := by unfold State.extentBytes; positivity
  rw [Nat.div_lt_iff_lt_mul hpos]
  omega

/-- Settles O9: the covering view is the one that `find?` gives, and its extent list reaches the offset. -/
theorem lookupFindsCoveringView : Obligations.LookupFindsCoveringView := by
  intro s p off hviews hwf
  refine ⟨fun hnone => ?_, fun v hv hc hr => ?_, fun v hv hc hr => ?_⟩
  · have : (s.viewsOf p).find? (fun v => s.covers v off) = none :=
      List.find?_eq_none.2 fun v hv => by simp [hnone v hv]
    simp [State.lookup, this]
  · simp [State.lookup, State.find_covering hviews hv hc, hr, State.viewAnswer]
  · have hlt := State.extent_of_covers hwf hv hc hr
    refine ⟨_, List.getElem?_eq_getElem hlt, ?_⟩
    simp [State.lookup, State.find_covering hviews hv hc, hr, State.translate, State.viewAnswer, hlt]

end Views

end Sys2Proof.Machine
end

section
/-!
The views of every agent (R13 to R15), read by window slot and grant slot, and what may happen to them: they narrow,
one is added in free view space, or those of one window lengthen into free view space.
-/

namespace Sys2Proof.Machine

section Places

/-- The agent and the base of a view. -/
def Grant.viewOf : Grant → Option (Port × Nat)
  | .active a _ b => some (a, b)
  | .revoked a _ b => some (a, b)
  | .vacant => none
  | .offered _ _ _ => none

theorem Grant.agent_of_viewOf {g : Grant} {a : Port} {b : Nat} (h : g.viewOf = some (a, b)) : g.agent = some a := by
  cases g <;> simp_all [Grant.viewOf, Grant.agent]

/-- Every grant slot of every window. -/
def grantSlots : List (WSlot × GSlot) := List.finRange 128 ×ˢ List.finRange 6

theorem grantSlots_nodup : grantSlots.Nodup := (List.nodup_finRange 128).product (List.nodup_finRange 6)

/-- The grant slot. -/
def State.grantAt (s : State) (x : WSlot × GSlot) : Grant := (s.window x.1).grant x.2

/-- Agent `a` has a view in the grant slot. -/
def State.holdsView (s : State) (a : Port) (x : WSlot × GSlot) : Bool :=
  match (s.grantAt x).viewOf with
  | some (b, _) => decide (b = a)
  | none => false

/-- A range of view space that is extent-aligned and ends within view space (R13, R14). -/
def State.WithinSpace (s : State) (base len : Nat) : Prop :=
  base % s.extentBytes = 0 ∧ base + len * s.extentBytes ≤ viewSpaceBytes

/-- Two ranges of view space do not meet (R14). -/
def State.Apart (s : State) (b m c n : Nat) : Prop :=
  c + n * s.extentBytes ≤ b ∨ b + m * s.extentBytes ≤ c

/-- The views of one agent, by grant slot. -/
structure State.Placed (s : State) (a : Port) : Prop where
  held : grantSlots.countP (s.holdsView a) ≤ 16
  within : ∀ x b, (s.grantAt x).viewOf = some (a, b) → s.WithinSpace b (s.window x.1).viewLen
  apart : ∀ x y b c, x ≠ y → (s.grantAt x).viewOf = some (a, b) → (s.grantAt y).viewOf = some (a, c) →
    s.Apart b (s.window x.1).viewLen c (s.window y.1).viewLen

variable {s : State} {a : Port}

theorem State.holdsView_iff {x : WSlot × GSlot} :
    s.holdsView a x = true ↔ ∃ b, (s.grantAt x).viewOf = some (a, b) := by
  unfold State.holdsView
  split
  · next b c h => simp [h]
  · next h => simp [h]

theorem State.viewAt_of_viewOf {x : WSlot × GSlot} {b : Nat} (h : (s.grantAt x).viewOf = some (a, b)) :
    ∃ v, s.viewAt a x.1 x.2 = some v ∧ v.base = b ∧ v.len = (s.window x.1).viewLen := by
  unfold State.grantAt Grant.viewOf at h
  unfold State.viewAt
  split at h <;> simp_all

theorem State.viewOf_of_viewAt {x : WSlot × GSlot} {v : View} (h : s.viewAt a x.1 x.2 = some v) :
    (s.grantAt x).viewOf = some (a, v.base) ∧ v.len = (s.window x.1).viewLen := by
  obtain ⟨-, -, hlen, hg⟩ := State.viewAt_eq_some h
  refine ⟨?_, hlen⟩
  unfold State.grantAt
  rw [hg]
  cases v.revoked <;> rfl

theorem State.viewsOf_eq (s : State) (a : Port) :
    s.viewsOf a = grantSlots.filterMap fun x => s.viewAt a x.1 x.2 := by
  simp only [State.viewsOf, grantSlots, SProd.sprod, List.product, List.filterMap_flatMap, List.filterMap_map]
  rfl

theorem State.viewsHeld_eq (s : State) (a : Port) : s.viewsHeld a = grantSlots.countP (s.holdsView a) := by
  rw [State.viewsHeld, State.viewsOf_eq, List.length_filterMap_eq_countP]
  refine List.countP_congr fun x _ => ?_
  rw [State.holdsView_iff, Option.isSome_iff_exists]
  constructor
  · rintro ⟨v, hv⟩
    exact ⟨_, (State.viewOf_of_viewAt hv).1⟩
  · rintro ⟨b, hb⟩
    obtain ⟨v, hv, -⟩ := State.viewAt_of_viewOf hb
    exact ⟨v, hv⟩

theorem State.meets_eq_false_iff (s : State) (base len : Nat) (v : View) :
    s.meets base len v = false ↔ s.Apart base len v.base v.len := by
  simp only [State.meets, State.Apart, Bool.and_eq_false_iff, decide_eq_false_iff_not, not_lt]

theorem State.viewsOk_iff (s : State) : s.ViewsOk ↔ ∀ a, s.Placed a := by
  refine forall_congr' fun a => ?_
  constructor
  · rintro ⟨hheld, hwithin, hapart⟩
    rw [State.viewsHeld_eq] at hheld
    refine ⟨hheld, fun x b hx => ?_, fun x y b c hne hx hy => ?_⟩
    · obtain ⟨v, hv, rfl, hlen⟩ := State.viewAt_of_viewOf hx
      exact hlen ▸ hwithin v (State.mem_viewsOf.2 ⟨_, _, hv⟩)
    · obtain ⟨u, hu, rfl, hlu⟩ := State.viewAt_of_viewOf hx
      obtain ⟨v, hv, rfl, hlv⟩ := State.viewAt_of_viewOf hy
      have hne' : u ≠ v := by
        rintro rfl
        have h1 := State.viewAt_eq_some hu
        have h2 := State.viewAt_eq_some hv
        exact hne (Prod.ext (h1.1.symm.trans h2.1) (h1.2.1.symm.trans h2.2.1))
      have : Std.Symm fun u v : View => s.meets u.base u.len v = false := ⟨fun x y hxy => by rwa [s.meets_symm]⟩
      rw [← hlu, ← hlv, ← State.meets_eq_false_iff]
      exact hapart.forall (State.mem_viewsOf.2 ⟨_, _, hu⟩) (State.mem_viewsOf.2 ⟨_, _, hv⟩) hne'
  · rintro ⟨hheld, hwithin, hapart⟩
    refine ⟨(s.viewsHeld_eq a).trans_le hheld, fun v hv => ?_, ?_⟩
    · obtain ⟨w, k, hv⟩ := State.mem_viewsOf.1 hv
      obtain ⟨hb, hlen⟩ := State.viewOf_of_viewAt (x := (w, k)) hv
      exact hlen ▸ hwithin _ _ hb
    · rw [State.viewsOf_eq, List.pairwise_filterMap]
      refine grantSlots_nodup.pairwise_of_forall_ne fun x _ y _ hne u hu v hv => ?_
      obtain ⟨hb, hlu⟩ := State.viewOf_of_viewAt hu
      obtain ⟨hc, hlv⟩ := State.viewOf_of_viewAt hv
      rw [State.meets_eq_false_iff, hlu, hlv]
      exact hapart x y _ _ hne hb hc

/-- A range stays apart from another when it shortens. -/
theorem State.Apart.shorten {b m c n m' n' : Nat} (h : s.Apart b m c n) (hm : m' ≤ m) (hn : n' ≤ n) :
    s.Apart b m' c n' := by
  have h1 := Nat.mul_le_mul_right s.extentBytes hm
  have h2 := Nat.mul_le_mul_right s.extentBytes hn
  unfold State.Apart at h ⊢
  omega

theorem State.WithinSpace.shorten {b m m' : Nat} (h : s.WithinSpace b m) (hm : m' ≤ m) : s.WithinSpace b m' := by
  have h1 := Nat.mul_le_mul_right s.extentBytes hm
  obtain ⟨h2, h3⟩ := h
  exact ⟨h2, by omega⟩

theorem State.Apart.symm {b m c n : Nat} (h : s.Apart b m c n) : s.Apart c n b m := Or.symm h

end Places

section Changes

/-- Every view of the record `x'` is a view of `x` at the same place, no longer than there. -/
def Window.Narrows (x x' : Window) : Prop :=
  ∀ k v, (x'.grant k).viewOf = some v → (x.grant k).viewOf = some v ∧ x'.viewLen ≤ x.viewLen

theorem Window.Narrows.refl (x : Window) : x.Narrows x := fun _ _ h => ⟨h, le_rfl⟩

theorem Window.Narrows.trans {x y z : Window} (h1 : x.Narrows y) (h2 : y.Narrows z) : x.Narrows z := by
  intro k v hz
  obtain ⟨hy, hlen⟩ := h2 k v hz
  obtain ⟨hx, hlen'⟩ := h1 k v hy
  exact ⟨hx, hlen.trans hlen'⟩

theorem State.extentBytes_congr {s t : State} (h : t.straps = s.straps) : t.extentBytes = s.extentBytes := by
  unfold State.extentBytes
  rw [h]

variable {s t : State}

/-- A view count does not rise where every slot with a view had one. -/
theorem State.held_mono {a : Port} (h : ∀ x, t.holdsView a x = true → s.holdsView a x = true) :
    grantSlots.countP (t.holdsView a) ≤ grantSlots.countP (s.holdsView a) :=
  List.countP_mono_left fun x _ => h x

/-- Views that only narrow stay well placed. -/
theorem State.ViewsOk.narrow (h : s.ViewsOk) (hs : t.straps = s.straps)
    (hw : ∀ w, (s.window w).Narrows (t.window w)) : t.ViewsOk := by
  rw [State.viewsOk_iff] at h ⊢
  intro a
  obtain ⟨hheld, hwithin, hapart⟩ := h a
  have he := State.extentBytes_congr hs
  refine ⟨(State.held_mono fun x hx => ?_).trans hheld, fun x b hx => ?_, fun x y b c hne hx hy => ?_⟩
  · obtain ⟨b, hb⟩ := State.holdsView_iff.1 hx
    exact State.holdsView_iff.2 ⟨b, (hw x.1 x.2 _ hb).1⟩
  · obtain ⟨hx', hlen⟩ := hw x.1 x.2 _ hx
    have := (hwithin x b hx').shorten hlen
    unfold State.WithinSpace at this ⊢
    rwa [he]
  · obtain ⟨hx', hlx⟩ := hw x.1 x.2 _ hx
    obtain ⟨hy', hly⟩ := hw y.1 y.2 _ hy
    have := (hapart x y b c hne hx' hy').shorten hlx hly
    unfold State.Apart at this ⊢
    rwa [he]

/-- What passes one of two tests at most is counted by the two. -/
theorem countP_le_add_countP {α : Type} {p q r : α → Bool} {l : List α}
    (h : ∀ x, p x = true → q x = true ∨ r x = true) : l.countP p ≤ l.countP q + l.countP r := by
  induction l with
  | nil => simp
  | cons x l ih =>
    have hx := h x
    simp only [List.countP_cons]
    cases hp : p x
    · simp only [Bool.false_eq_true, if_false]
      omega
    · rcases hx hp with hq | hr
      · simp only [hq, if_true]
        omega
      · simp only [hr, if_true]
        omega

/-- A view added where its range is in view space and meets no view of its agent (R78, R101). -/
theorem State.ViewsOk.add (h : s.ViewsOk) (hs : t.straps = s.straps) {p : Port} {x₀ : WSlot × GSlot} {base n : Nat}
    (hother : ∀ x v, x ≠ x₀ → (t.grantAt x).viewOf = some v →
      (s.grantAt x).viewOf = some v ∧ (t.window x.1).viewLen = (s.window x.1).viewLen)
    (hnew : (t.grantAt x₀).viewOf = some (p, base)) (hlen : (t.window x₀.1).viewLen = n)
    (hbase : s.baseOk base = true) (hfits : s.fits base n = true) (hheld : s.viewsHeld p < 16)
    (hmeets : ∀ v ∈ s.viewsOf p, s.meets base n v = false) : t.ViewsOk := by
  rw [State.viewsOk_iff] at h ⊢
  intro a
  obtain ⟨hheldA, hwithin, hapart⟩ := h a
  have he := State.extentBytes_congr hs
  have hfresh : ∀ x c, x ≠ x₀ → (t.grantAt x).viewOf = some (p, c) → s.Apart base n c (t.window x.1).viewLen := by
    intro x c hne hx
    obtain ⟨hx', hl⟩ := hother x _ hne hx
    obtain ⟨v, hv, rfl, hlv⟩ := State.viewAt_of_viewOf hx'
    rw [hl, ← hlv, ← State.meets_eq_false_iff]
    exact hmeets v (State.mem_viewsOf.2 ⟨_, _, hv⟩)
  refine ⟨?_, fun x b hx => ?_, fun x y b c hne hx hy => ?_⟩
  · by_cases hp : a = p
    · subst hp
      rw [State.viewsHeld_eq] at hheld
      have hle : grantSlots.countP (t.holdsView a) ≤
          grantSlots.countP (s.holdsView a) + grantSlots.countP (· == x₀) := by
        refine countP_le_add_countP fun x hx => ?_
        obtain ⟨b, hb⟩ := State.holdsView_iff.1 hx
        by_cases hx0 : x = x₀
        · exact Or.inr (by simpa using hx0)
        · exact Or.inl (State.holdsView_iff.2 ⟨b, (hother x _ hx0 hb).1⟩)
      have hone : grantSlots.countP (· == x₀) ≤ 1 := List.nodup_iff_count_le_one.1 grantSlots_nodup x₀
      omega
    · refine (State.held_mono fun x hx => ?_).trans hheldA
      obtain ⟨b, hb⟩ := State.holdsView_iff.1 hx
      refine State.holdsView_iff.2 ⟨b, (hother x _ ?_ hb).1⟩
      rintro rfl
      rw [hnew] at hb
      cases hb
      exact hp rfl
  · unfold State.WithinSpace
    rw [he]
    by_cases hx0 : x = x₀
    · subst hx0
      rw [hnew] at hx
      cases hx
      rw [hlen]
      simp only [State.baseOk, State.fits, Bool.and_eq_true, decide_eq_true_eq] at hbase hfits
      exact ⟨hbase.2, hfits⟩
    · obtain ⟨hx', hl⟩ := hother x _ hx0 hx
      rw [hl]
      exact hwithin x b hx'
  · unfold State.Apart
    rw [he]
    by_cases hx0 : x = x₀
    · subst hx0
      rw [hnew] at hx
      cases hx
      rw [hlen]
      exact hfresh y c (Ne.symm hne) hy
    · by_cases hy0 : y = x₀
      · subst hy0
        rw [hnew] at hy
        cases hy
        rw [hlen]
        exact (hfresh x b hx0 hx).symm
      · obtain ⟨hx', hlx⟩ := hother x _ hx0 hx
        obtain ⟨hy', hly⟩ := hother y _ hy0 hy
        rw [hlx, hly]
        exact hapart x y b c hne hx' hy'

theorem Window.mem_viewBases {x : Window} {k : GSlot} {a : Port} {b : Nat} :
    (k, a, b) ∈ x.viewBases ↔ (x.grant k).viewOf = some (a, b) := by
  simp only [Window.viewBases, List.mem_filterMap, List.mem_finRange, true_and]
  constructor
  · rintro ⟨j, hj⟩
    split at hj <;> simp_all [Grant.viewOf]
  · intro h
    refine ⟨k, ?_⟩
    cases hg : x.grant k <;> simp_all [Grant.viewOf]

/-- The views of one window lengthen where each still ends within view space and meets no other view of its agent
(R81), an agent having one grant slot in the window at most (R10). -/
theorem State.ViewsOk.lengthen (h : s.ViewsOk) (hs : t.straps = s.straps) {w : WSlot} {n : Nat}
    (hgrant : ∀ x, t.grantAt x = s.grantAt x) (hlen : (t.window w).viewLen = n)
    (hother : ∀ v, v ≠ w → (t.window v).viewLen = (s.window v).viewLen)
    (hone : ∀ j k a, ((s.window w).grant j).isOf a = true → ((s.window w).grant k).isOf a = true → j = k)
    (hfits : s.growFits w n = true) (hclear : s.growClear w n = true) : t.ViewsOk := by
  rw [State.viewsOk_iff] at h ⊢
  intro a
  obtain ⟨hheld, hwithin, hapart⟩ := h a
  have he := State.extentBytes_congr hs
  simp only [State.growFits, State.growClear, List.all_eq_true, Prod.forall, Window.mem_viewBases,
    State.fits, decide_eq_true_eq] at hfits hclear
  have hgrown : ∀ k y b c, y.1 ≠ w → (s.grantAt (w, k)).viewOf = some (a, b) → (s.grantAt y).viewOf = some (a, c) →
      s.Apart b n c (s.window y.1).viewLen := by
    intro k y b c hne hx hy
    obtain ⟨v, hv, rfl, hlv⟩ := State.viewAt_of_viewOf hy
    have := hclear k a b hx v (State.mem_viewsOf.2 ⟨_, _, hv⟩)
    have hw : v.window ≠ w := fun hvw => hne ((State.viewAt_eq_some hv).1.symm.trans hvw)
    rw [← hlv, ← State.meets_eq_false_iff]
    simpa [hw] using this
  refine ⟨(State.held_mono fun x hx => ?_).trans hheld, fun x b hx => ?_, fun x y b c hne hx hy => ?_⟩
  · unfold State.holdsView at hx ⊢
    rwa [hgrant] at hx
  · rw [hgrant] at hx
    unfold State.WithinSpace
    rw [he]
    obtain ⟨v, k⟩ := x
    by_cases hv : v = w
    · subst hv
      rw [hlen]
      exact ⟨(hwithin _ b hx).1, hfits k a b hx⟩
    · rw [hother v hv]
      exact hwithin _ b hx
  · rw [hgrant] at hx hy
    unfold State.Apart
    rw [he]
    obtain ⟨v, j⟩ := x
    obtain ⟨u, k⟩ := y
    by_cases hv : v = w
    · subst hv
      by_cases hu : u = v
      · subst hu
        have hof : ∀ i d, ((s.window u).grant i).viewOf = some (a, d) → ((s.window u).grant i).isOf a = true := by
          intro i d hi
          simp [Grant.isOf, Grant.agent_of_viewOf hi]
        exact absurd (by rw [hone j k a (hof j b hx) (hof k c hy)]) hne
      · rw [hlen, hother u hu]
        exact hgrown j (u, k) b c hu hx hy
    · by_cases hu : u = w
      · subst hu
        rw [hlen, hother v hv]
        exact (hgrown k (v, j) c b hv hy hx).symm
      · rw [hother v hv, hother u hu]
        exact hapart _ _ b c hne hx hy

end Changes

end Sys2Proof.Machine
end

section
/-!
Window records: what keeps a record well formed (R1 to R4, R10), what ends a drain (R93, R94, R171), and the record
of the drain of CLEAR.
-/

namespace Sys2Proof.Machine

section Record

/-- A window record that is well formed, whether or not its drain set agrees with its retiring list (R3). -/
structure Window.Body (x : Window) : Prop where
  vacant : x.state = .vacant → x = Window.vacantAt x.gen
  size : x.state = .opened → 1 ≤ x.extents.length ∧ x.extents.length ≤ 128
  ownerView : x.state = .opened → ∃ o b, x.owner = some o ∧ x.grant 0 = .active o .readWrite b
  closed : x.state ≠ .opened → x.extents = [] ∧ ∀ k, (x.grant k).isActive = false ∧ (x.grant k).isOffered = false
  owned : x.state ≠ .vacant → x.owner ≠ none
  rests : x.state = .retiring → x.drain = DrainSet.empty ∧ x.hasView = true
  first : (x.grant 0).isOffered = false
  grantees : ∀ k, k ≠ 0 → (x.grant k).agent ≠ none → (x.grant k).agent ≠ x.owner
  single : ∀ j k a, (x.grant j).isOf a = true → (x.grant k).isOf a = true → j = k

theorem Window.wf_iff (x : Window) : x.Wf ↔ x.Body ∧ (x.drain = DrainSet.empty ↔ x.retiring = []) :=
  ⟨fun ⟨h1, h2, h3, h4, h5, h6, h7, h8, h9, h10⟩ => ⟨⟨h1, h2, h3, h4, h5, h6, h8, h9, h10⟩, h7⟩,
    fun ⟨h, h7⟩ => ⟨h.vacant, h.size, h.ownerView, h.closed, h.owned, h.rests, h7, h.first, h.grantees, h.single⟩⟩

theorem Window.Wf.body {x : Window} (h : x.Wf) : x.Body := (x.wf_iff.1 h).1

theorem Window.Wf.drain_iff {x : Window} (h : x.Wf) : x.drain = DrainSet.empty ↔ x.retiring = [] := (x.wf_iff.1 h).2

@[simp] theorem Window.grant_vacantAt (g : BitVec 8) (k : GSlot) : (Window.vacantAt g).grant k = .vacant :=
  Tab.get_replicate _ k

theorem Window.wf_vacantAt (g : BitVec 8) : (Window.vacantAt g).Wf := by
  refine ⟨fun _ => rfl, nofun, nofun, fun _ => ⟨rfl, fun k => ?_⟩, fun h => absurd rfl h, nofun,
    ⟨fun _ => rfl, fun _ => rfl⟩,
    ?_, fun k _ h => ?_, fun j k a h => ?_⟩
  · simp [Grant.isActive, Grant.isOffered]
  · simp [Grant.isOffered]
  · simp [Grant.agent] at h
  · simp [Grant.isOf, Grant.agent] at h

@[simp] theorem Window.grant_setGrant (x : Window) (k j : GSlot) (g : Grant) :
    (x.setGrant k g).grant j = if j = k then g else x.grant j := by
  unfold Window.grant Window.setGrant
  rw [Tab.get_upd]

theorem Window.grant_mapAll {x : Window} {f : GSlot → Grant → Grant} (k : GSlot) :
    Window.grant { x with grants := Tab.mapAll x.grants f } k = f k (x.grant k) := Tab.get_mapAll _ _ k

theorem Window.ext_grants {x y : Window} (he : y = { x with grants := y.grants })
    (hg : ∀ k, y.grant k = x.grant k) : y = x := by
  have : y.grants = x.grants := Tab.ext hg
  rw [he, this]

/-- What a grant slot may become while its agent, if it keeps one, keeps its view: vacant, REVOKED from ACTIVE, or an
offer of another age. -/
inductive Grant.Trims : Grant → Grant → Prop
  | same (g : Grant) : Trims g g
  | vacated (g : Grant) : Trims g .vacant
  | revoked (a : Port) (r : Rights) (b : Nat) : Trims (.active a r b) (.revoked a r b)
  | aged (a : Port) (r : Rights) (l l' : Option Nat) : Trims (.offered a r l) (.offered a r l')

variable {g g' : Grant} {x x' : Window}

theorem Grant.Trims.agent (h : g.Trims g') {a : Port} (ha : g'.agent = some a) : g.agent = some a := by
  cases h with
  | vacated => cases ha
  | same | revoked | aged => exact ha

theorem Grant.Trims.viewOf (h : g.Trims g') {v : Port × Nat} (hv : g'.viewOf = some v) : g.viewOf = some v := by
  cases h with
  | vacated => cases hv
  | same | revoked | aged => exact hv

theorem Grant.Trims.not_active (h : g.Trims g') (ha : g.isActive = false) : g'.isActive = false := by
  cases h with
  | vacated | revoked | aged => rfl
  | same => exact ha

theorem Grant.Trims.not_offered (h : g.Trims g') (ha : g.isOffered = false) : g'.isOffered = false := by
  cases h with
  | vacated | revoked => rfl
  | same => exact ha
  | aged => cases ha

theorem Grant.Trims.vacant_of_vacant (h : g.Trims g') (hg : g = .vacant) : g' = .vacant := by
  cases h with
  | vacated => rfl
  | same => exact hg
  | revoked | aged => cases hg

/-- R10 holds on where no grant slot gets an agent. -/
theorem Window.Body.agents (h : x.Body) (ho : x'.owner = x.owner)
    (ha : ∀ k a, (x'.grant k).agent = some a → (x.grant k).agent = some a) :
    (∀ k, k ≠ 0 → (x'.grant k).agent ≠ none → (x'.grant k).agent ≠ x'.owner) ∧
      ∀ j k a, (x'.grant j).isOf a = true → (x'.grant k).isOf a = true → j = k := by
  refine ⟨fun k hk hne => ?_, fun j k a hj hk => h.single j k a ?_ ?_⟩
  · obtain ⟨a, hka⟩ := Option.ne_none_iff_exists'.1 hne
    have := ha k a hka
    rw [hka, ho, ← this]
    exact h.grantees k hk (by simp [this])
  · simp only [Grant.isOf, decide_eq_true_eq] at hj ⊢
    exact ha j a hj
  · simp only [Grant.isOf, decide_eq_true_eq] at hk ⊢
    exact ha k a hk

/-- The window's grant slots change, and nothing else of it: an OPEN window's owner keeps its view, a RETIRING one keeps
some view. -/
structure Window.Trims (x x' : Window) : Prop where
  rest : x' = { x with grants := x'.grants }
  grants : ∀ k, (x.grant k).Trims (x'.grant k)
  ownerView : x.state = .opened → x'.grant 0 = x.grant 0
  hasView : x.state = .retiring → x'.hasView = true

theorem Window.Trims.narrows (h : x.Trims x') : x.Narrows x' := by
  intro k v hv
  refine ⟨(h.grants k).viewOf hv, ?_⟩
  rw [h.rest]
  exact le_rfl

theorem Window.Trims.body (h : x.Trims x') (hb : x.Body) : x'.Body := by
  obtain ⟨hrest, hgrants, howner, hview⟩ := h
  have hstate : x'.state = x.state := by rw [hrest]
  have hextents : x'.extents = x.extents := by rw [hrest]
  have howned : x'.owner = x.owner := by rw [hrest]
  have hdrain : x'.drain = x.drain := by rw [hrest]
  have hagents := hb.agents howned fun k a => (hgrants k).agent
  refine ⟨fun hv => ?_, ?_, fun ho => ?_, fun hc => ?_, ?_, fun hr => ?_, (hgrants 0).not_offered hb.first,
    hagents.1, hagents.2⟩
  · rw [hstate] at hv
    have hx := hb.vacant hv
    have : x' = x := Window.ext_grants hrest fun k => by
      have hk : x.grant k = .vacant := by rw [hx]; exact Window.grant_vacantAt _ k
      rw [hk]
      exact (hgrants k).vacant_of_vacant hk
    rw [this]
    exact hx
  · rw [hstate, hextents]
    exact hb.size
  · rw [hstate] at ho
    rw [howned, howner ho]
    exact hb.ownerView ho
  · rw [hstate] at hc
    rw [hextents]
    exact (hb.closed hc).imp_right fun h k => ⟨(hgrants k).not_active (h k).1, (hgrants k).not_offered (h k).2⟩
  · rw [hstate, howned]
    exact hb.owned
  · rw [hstate] at hr
    rw [hdrain]
    exact ⟨(hb.rests hr).1, hview hr⟩

/-- What a command on offers and views makes of a window: its grant slots trimmed, or a RETIRING window VACANT one
generation on when its last view goes (R6, R98). -/
inductive Window.Regrants (x : Window) : Window → Prop
  | trimmed {x' : Window} (h : x.Trims x') : Regrants x x'
  | vanished (h : x.state = .retiring) : Regrants x (Window.vacantAt (x.gen + 1))

theorem Window.Regrants.refl (x : Window) (hx : x.Wf) : x.Regrants x :=
  .trimmed ⟨rfl, fun _ => .same _, fun _ => rfl, fun hr => (hx.body.rests hr).2⟩

theorem Window.Regrants.wf (h : x.Regrants x') (hx : x.Wf) : x'.Wf := by
  cases h with
  | trimmed h =>
    refine x'.wf_iff.2 ⟨h.body hx.body, ?_⟩
    rw [h.rest]
    exact hx.drain_iff
  | vanished h => exact Window.wf_vacantAt _

theorem Window.narrows_vacantAt (x : Window) (g : BitVec 8) : x.Narrows (Window.vacantAt g) := by
  intro k v hv
  simp [Grant.viewOf] at hv

theorem Window.Regrants.narrows (h : x.Regrants x') : x.Narrows x' := by
  cases h with
  | trimmed h => exact h.narrows
  | vanished h => exact x.narrows_vacantAt _

/-- A regranted window that drains drained before, and its drain set stays. -/
theorem Window.Regrants.draining (h : x.Regrants x') (hd : x'.state = .draining) :
    x.state = .draining ∧ x'.drain = x.drain := by
  cases h with
  | trimmed h =>
    rw [h.rest] at hd ⊢
    exact ⟨hd, rfl⟩
  | vanished h => cases hd

/-- A DRAINING window without grant slots in use, as CLEAR leaves it, has nothing to trim. -/
theorem Window.Regrants.eq_of_cleared (h : x.Regrants x') (hd : x.state = .draining)
    (hg : x.grants = Vector.replicate 6 .vacant) : x' = x := by
  have hvac : ∀ k, x.grant k = .vacant := fun k => by
    unfold Window.grant
    rw [hg]
    exact Tab.get_replicate _ k
  cases h with
  | trimmed h =>
    exact Window.ext_grants h.rest fun k => by
      rw [hvac k]
      exact (h.grants k).vacant_of_vacant (hvac k)
  | vanished h => rw [hd] at h; cases h

end Record

section Drained

variable {x : Window}

/-- The record after its drain set has changed: an empty set ends the drain (R93, R94). -/
def Window.endIfEmpty (x : Window) : Window := if x.drain = DrainSet.empty then x.afterDrain else x

/-- The end of a drain leaves a well-formed record (R94). -/
theorem Window.Body.afterDrain (h : x.Body) (hs : x.state = .opened ∨ x.state = .draining) :
    x.afterDrain.Wf ∧ x.afterDrain.state ≠ .draining := by
  unfold Window.afterDrain
  split
  · next hd =>
    split
    · next hview =>
      exact ⟨(Window.wf_iff _).2 ⟨⟨nofun, nofun, nofun, fun _ => h.closed (by simp [hd]),
        fun _ => h.owned (by simp [hd]), fun _ => ⟨rfl, hview⟩, h.first, h.grantees, h.single⟩,
        ⟨fun _ => rfl, fun _ => rfl⟩⟩, nofun⟩
    · exact ⟨Window.wf_vacantAt _, nofun⟩
  · next hv => simp [hv] at hs
  · next ho =>
    have hne : ∀ {st}, x.state = st → st = .opened := fun h => h.symm.trans ho
    refine ⟨(Window.wf_iff _).2 ⟨⟨fun hv => ?_, h.size, h.ownerView, h.closed, h.owned, fun hr => ?_, h.first,
      h.grantees, h.single⟩, ⟨fun _ => rfl, fun _ => rfl⟩⟩, fun hd => ?_⟩
    · cases hne hv
    · cases hne hr
    · cases hne hd
  · next hr => simp [hr] at hs

theorem Window.Body.endIfEmpty (h : x.Body) (hs : x.state = .opened ∨ x.state = .draining)
    (hr : x.retiring ≠ []) :
    x.endIfEmpty.Wf ∧ (x.endIfEmpty.state = .draining → x.endIfEmpty.drain ≠ DrainSet.empty) := by
  unfold Window.endIfEmpty
  split
  · exact (h.afterDrain hs).imp_right fun hne hd => absurd hd hne
  · next hd => exact ⟨x.wf_iff.2 ⟨h, ⟨fun he => absurd he hd, fun he => absurd he hr⟩⟩, fun _ => hd⟩

theorem Window.narrows_endIfEmpty (x : Window) : x.Narrows x.endIfEmpty := by
  unfold Window.endIfEmpty Window.afterDrain
  split
  · split
    · next hs =>
      split
      · exact fun k v hv => ⟨hv, by simp [Window.viewLen, hs]⟩
      · exact x.narrows_vacantAt _
    all_goals exact fun k v hv => ⟨hv, by simp [Window.viewLen]⟩
  · exact .refl x

theorem Window.afterDrain_retiring (x : Window) : x.afterDrain.retiring = [] := by
  unfold Window.afterDrain
  split
  · split <;> rfl
  all_goals rfl

theorem Window.endIfEmpty_not_opened {x : Window} (h : x.state = .draining) : x.endIfEmpty.state ≠ .opened := by
  unfold Window.endIfEmpty Window.afterDrain
  rw [h]
  split
  · dsimp only
    split <;> nofun
  · rw [h]
    nofun

/-- A member whose work ends leaves the drain set (R93). -/
def Window.without (x : Window) (m : Member) : Window := { x with drain := x.drain.remove m }

theorem DrainSet.ne_empty_of_has {d : DrainSet} {m : Member} (h : d.has m = true) : d ≠ DrainSet.empty := by
  rintro rfl
  cases m <;> simp [DrainSet.has, DrainSet.empty] at h

/-- A pending drain is one of an OPEN or a DRAINING window, and has extents waiting (R3). -/
theorem Window.Wf.pending (h : x.Wf) (hd : x.drain ≠ DrainSet.empty) :
    (x.state = .opened ∨ x.state = .draining) ∧ x.retiring ≠ [] := by
  refine ⟨?_, fun hr => hd (h.drain_iff.2 hr)⟩
  cases hs : x.state with
  | opened => exact Or.inl rfl
  | draining => exact Or.inr rfl
  | vacant =>
    rw [h.body.vacant hs] at hd
    exact absurd rfl hd
  | retiring => exact absurd (h.body.rests hs).1 hd

theorem Window.Wf.without (h : x.Wf) {m : Member} (hm : x.drain.has m = true) :
    (x.without m).endIfEmpty.Wf ∧
      ((x.without m).endIfEmpty.state = .draining → (x.without m).endIfEmpty.drain ≠ DrainSet.empty) := by
  obtain ⟨hs, hr⟩ := h.pending (DrainSet.ne_empty_of_has hm)
  have hb := h.body
  refine Window.Body.endIfEmpty (x := x.without m) ⟨fun hv => ?_, hb.size, hb.ownerView, hb.closed, hb.owned,
    fun hv => ?_, hb.first, hb.grantees, hb.single⟩ hs hr
  · have hv' : x.state = .vacant := hv
    rw [hv'] at hs
    simp at hs
  · have hv' : x.state = .retiring := hv
    rw [hv'] at hs
    simp at hs

end Drained

section Closing

variable {x : Window}

theorem Grant.trims_atClose (forced : Bool) (k : GSlot) (g : Grant) : g.Trims (g.atClose forced k) := by
  cases g with
  | active a r b =>
    simp only [Grant.atClose]
    split
    · exact .vacated _
    · exact .revoked a r b
  | revoked a r b => exact .same _
  | offered a r l => exact .vacated _
  | vacant => exact .same _

theorem Grant.atClose_closed (forced : Bool) (k : GSlot) (g : Grant) :
    (g.atClose forced k).isActive = false ∧ (g.atClose forced k).isOffered = false := by
  cases g with
  | active a r b => simp only [Grant.atClose]; split <;> exact ⟨rfl, rfl⟩
  | revoked | offered | vacant => exact ⟨rfl, rfl⟩

/-- The record of a window at its close, its drain not yet judged (R89 to R91). -/
def Window.closing (x : Window) (forced : Bool) (d : DrainSet) (r : List Extent) : Window :=
  { x with
    state := .draining, extents := [], closedLen := x.extents.length
    grants := Tab.mapAll x.grants fun k g => g.atClose forced k, drain := d, retiring := r }

theorem Window.Body.closing (h : x.Body) (hs : x.state = .opened) (forced : Bool) (d : DrainSet)
    (r : List Extent) : (x.closing forced d r).Body := by
  have hg : ∀ k, (x.closing forced d r).grant k = (x.grant k).atClose forced k := fun k => Tab.get_mapAll _ _ k
  have hagents := h.agents (x' := x.closing forced d r) rfl fun k a ha =>
    (Grant.trims_atClose forced k _).agent (hg k ▸ ha)
  refine ⟨nofun, nofun, nofun, fun _ => ⟨rfl, fun k => ?_⟩, fun _ => h.owned (by simp [hs]), nofun, ?_,
    hagents.1, hagents.2⟩
  · rw [hg]
    exact Grant.atClose_closed _ _ _
  · rw [hg]
    exact (Grant.atClose_closed _ _ _).2

theorem Window.narrows_closing (hs : x.state = .opened) (forced : Bool) (d : DrainSet) (r : List Extent) :
    x.Narrows (x.closing forced d r) := by
  intro k v hv
  have hg : (x.closing forced d r).grant k = (x.grant k).atClose forced k := Tab.get_mapAll _ _ k
  rw [hg] at hv
  exact ⟨(Grant.trims_atClose forced k _).viewOf hv, by simp [Window.viewLen, hs, Window.closing]⟩

/-- The record of a window at a SHRINK, its drain not yet judged (R85, R86). -/
def Window.shrinking (x : Window) (l : List Extent) (d : DrainSet) (r : List Extent) : Window :=
  { x with extents := l, drain := d, retiring := r }

theorem Window.Body.shrinking (h : x.Body) (hs : x.state = .opened) {l : List Extent} (h1 : 1 ≤ l.length)
    (h128 : l.length ≤ 128) (d : DrainSet) (r : List Extent) : (x.shrinking l d r).Body := by
  have hne : ∀ {st}, x.state = st → st = .opened := fun h => h.symm.trans hs
  exact ⟨fun hv => (by cases hne hv), fun _ => ⟨h1, h128⟩, h.ownerView, fun hc => absurd hs hc, h.owned,
    fun hr => (by cases hne hr), h.first, h.grantees, h.single⟩

theorem Window.narrows_shrinking (hs : x.state = .opened) {l : List Extent} (hl : l.length ≤ x.extents.length)
    (d : DrainSet) (r : List Extent) : x.Narrows (x.shrinking l d r) :=
  fun k v hv => ⟨hv, by simp [Window.viewLen, hs, Window.shrinking, hl]⟩

end Closing

section Cleared

variable {x : Window}

theorem Window.Wf.clear (h : x.Wf) : x.clear.Wf := by
  unfold Window.clear
  split
  · exact h
  all_goals
    next hs =>
    have hg : ∀ k, Tab.get (Vector.replicate 6 Grant.vacant) k = .vacant := fun k => Tab.get_replicate _ k
    refine (Window.wf_iff _).2 ⟨⟨nofun, nofun, nofun, fun _ => ⟨rfl, fun k => ?_⟩, fun _ => h.body.owned (by simp [hs]),
      nofun, ?_, fun k _ ha => ?_, fun j k a ha => ?_⟩, ⟨fun _ => rfl, fun _ => rfl⟩⟩
    · simp [Window.grant, hg, Grant.isActive, Grant.isOffered]
    · simp [Window.grant, hg, Grant.isOffered]
    · simp [Window.grant, hg, Grant.agent] at ha
    · simp [Window.grant, hg, Grant.isOf, Grant.agent] at ha

/-- CLEAR leaves no window with a view, an extent or an extent waiting (R172). -/
theorem Window.Wf.clear_empty (h : x.Wf) :
    (∀ k, x.clear.grant k = .vacant) ∧ x.clear.extents = [] ∧ x.clear.retiring = [] := by
  unfold Window.clear
  split
  · next hs =>
    rw [h.body.vacant hs]
    exact ⟨Window.grant_vacantAt _, rfl, rfl⟩
  all_goals exact ⟨fun k => Tab.get_replicate _ k, rfl, rfl⟩

theorem Window.clear_state (hs : x.state ≠ .vacant) :
    x.clear.state = .draining ∧ x.clear.drain = DrainSet.empty ∧ x.clear.grants = Vector.replicate 6 .vacant := by
  unfold Window.clear
  split
  · next hv => exact absurd hv hs
  all_goals exact ⟨rfl, rfl, rfl⟩

theorem Window.clear_vacant (hs : x.state = .vacant) : x.clear = x := by
  unfold Window.clear
  rw [hs]

end Cleared

section Tables

variable {s t : State}

/-- What the record of the drain of CLEAR holds, but for its command's slot (R171). -/
def ClearRecord.work (c : ClearRecord) : DrainSet × List Extent × List WSlot := (c.drain, c.retiring, c.closed)

theorem State.underClear_iff (s : State) (w : WSlot) :
    s.underClear w = true ↔ ∃ c, s.clearRec = some c ∧ w ∈ c.closed := by
  unfold State.underClear
  cases s.clearRec <;> simp

/-- A state whose record of CLEAR's drain holds the same work. -/
theorem State.clearRec_of_work (hc : t.clearRec.map ClearRecord.work = s.clearRec.map ClearRecord.work)
    {c : ClearRecord} (h : t.clearRec = some c) :
    ∃ d, s.clearRec = some d ∧ d.drain = c.drain ∧ d.retiring = c.retiring ∧ d.closed = c.closed := by
  rw [h, Option.map_some] at hc
  simpa [ClearRecord.work] using Option.map_eq_some_iff.1 hc.symm

theorem State.underClear_congr (hc : t.clearRec.map ClearRecord.work = s.clearRec.map ClearRecord.work) (w : WSlot) :
    t.underClear w = s.underClear w := by
  rw [Bool.eq_iff_iff, State.underClear_iff, State.underClear_iff]
  constructor
  · rintro ⟨c, h, hw⟩
    obtain ⟨d, hd, hwork⟩ := State.clearRec_of_work hc h
    exact ⟨d, hd, hwork.2.2 ▸ hw⟩
  · rintro ⟨c, h, hw⟩
    obtain ⟨d, hd, hwork⟩ := State.clearRec_of_work hc.symm h
    exact ⟨d, hd, hwork.2.2 ▸ hw⟩

/-- Window records that are replaced by well-formed ones, none under CLEAR and none left with an empty drain, leave the
table well formed. -/
theorem State.WindowsWf.replace (h : s.WindowsWf)
    (hc : t.clearRec.map ClearRecord.work = s.clearRec.map ClearRecord.work)
    (hw : ∀ w, t.window w = s.window w ∨ s.underClear w = false ∧ (t.window w).Wf ∧
      ((t.window w).state = .draining → (t.window w).drain ≠ DrainSet.empty)) : t.WindowsWf := by
  obtain ⟨hwf, hpend, hclear, hrec⟩ := h
  refine ⟨fun w => ?_, fun w hd he => ?_, fun w hu => ?_, fun c hcr => ?_⟩
  · rcases hw w with he | ⟨-, hwf', -⟩
    · rw [he]; exact hwf w
    · exact hwf'
  · rw [State.underClear_congr hc]
    rcases hw w with hs | ⟨-, -, hne⟩
    · rw [hs] at hd he
      exact hpend w hd he
    · exact absurd he (hne hd)
  · rw [State.underClear_congr hc] at hu
    rcases hw w with hs | ⟨hnot, -⟩
    · rw [hs]
      exact hclear w hu
    · rw [hu] at hnot
      cases hnot
  · obtain ⟨d, hd, hwork⟩ := State.clearRec_of_work hc hcr
    exact hwork.1 ▸ hrec d hd

/-- A window under CLEAR is no OPEN window and has no drain of its own (R171). -/
theorem State.WindowsWf.not_underClear (h : s.WindowsWf) {w : WSlot}
    (hw : (s.window w).state ≠ .draining ∨ (s.window w).drain ≠ DrainSet.empty) : s.underClear w = false := by
  refine Bool.eq_false_iff.2 fun hu => ?_
  obtain ⟨hd, he, -⟩ := h.2.2.1 w hu
  rcases hw with hw | hw
  · exact hw hd
  · exact hw he

/-- The commands on offers and views keep the table well formed. -/
theorem State.WindowsWf.regrant (h : s.WindowsWf)
    (hc : t.clearRec.map ClearRecord.work = s.clearRec.map ClearRecord.work)
    (hw : ∀ w, (s.window w).Regrants (t.window w)) : t.WindowsWf := by
  refine h.replace hc fun w => ?_
  cases hu : s.underClear w
  · refine Or.inr ⟨rfl, (hw w).wf (h.1 w), fun hd => ?_⟩
    obtain ⟨hd', he⟩ := (hw w).draining hd
    rw [he]
    intro hempty
    rw [h.2.1 w hd' hempty] at hu
    cases hu
  · obtain ⟨hd, -, hg⟩ := h.2.2.1 w hu
    exact Or.inl ((hw w).eq_of_cleared hd hg)

/-- The windows under CLEAR are VACANT one generation on when its drain ends (R173). -/
theorem State.windowsWf_endClearDrain {c : ClearRecord} (hc : s.clearRec = some c) (hwf : ∀ w, (s.window w).Wf)
    (hd : ∀ w, (s.window w).state = .draining → (s.window w).drain = DrainSet.empty → w ∈ c.closed) :
    s.endClearDrain.WindowsWf := by
  obtain ⟨hnone, hwin, -⟩ := s.endClearDrain_eq hc
  have hno : ∀ w, s.endClearDrain.underClear w = false := fun w => by
    unfold State.underClear
    rw [hnone]
  refine ⟨fun w => ?_, fun w hs he => ?_, fun w hu => ?_, fun d hdr => ?_⟩
  · rw [hwin]
    split
    · exact Window.wf_vacantAt _
    · exact hwf w
  · rw [hwin] at hs he
    split at hs
    · cases hs
    · next hnot =>
      rw [if_neg hnot] at he
      exact absurd (hd w hs he) hnot
  · rw [hno] at hu
    cases hu
  · rw [hnone] at hdr
    cases hdr

theorem State.window_endDrainIfEmpty (s : State) (w v : WSlot) :
    (s.endDrainIfEmpty w).window v = if v = w then (s.window v).endIfEmpty else s.window v := by
  unfold State.endDrainIfEmpty Window.endIfEmpty
  by_cases hd : (s.window w).drain = DrainSet.empty
  · rw [if_pos ((DrainSet.isEmpty_iff _).2 hd), State.window_endDrain]
    split
    · next hv => rw [hv, if_pos hd]
    · rfl
  · rw [if_neg fun he => hd ((DrainSet.isEmpty_iff _).1 he)]
    split
    · next hv => rw [hv, if_neg hd]
    · rfl

theorem State.leaveWindow_eq {w : WSlot} {m : Member} (hm : (s.window w).drain.has m = true) :
    s.leaveWindow w m = (s.updWindow w fun x => x.without m).endDrainIfEmpty w := by
  unfold State.leaveWindow State.endDrainIfEmpty
  rw [if_pos hm, State.window_updWindow_self]
  rfl

end Tables

end Sys2Proof.Machine
end

section
/-!
The pool of extents (R2, R24 to R40, R138): where each extent stands (`Pool`), the agreement of the places with the
Extent Map (`Pool.Coherent`), and what moves extents from one place to another. `State.pool` reads the pool off a
state; `State.coherent_iff` ties the agreement to the invariants.
-/

namespace Sys2Proof.Machine

section Agreement

/-- The extents that wait in the drain of CLEAR. -/
def State.clearRetiring (s : State) : List Extent :=
  match s.clearRec with
  | none => []
  | some c => c.retiring

/-- The state of every extent, and the places that hold extents: windows by their present handle, retiring lists
(`none` for that of the drain of CLEAR), the three lists, the Wipe Engine, and the relocation in progress. -/
@[ext] structure Pool where
  st      : Extent → ExtState
  held    : Handle → List Extent
  waiting : Option WSlot → List Extent
  free    : List Extent
  wipe    : List Extent
  reloc   : List Extent
  current : Option Extent
  live    : Option (Extent × Extent)

/-- The extents of the window that the handle names at present. -/
def State.heldBy (s : State) (h : Handle) : List Extent :=
  if h = s.handleOf h.slot then (s.window h.slot).extents else []

/-- The retiring list of a window or of the drain of CLEAR. -/
def State.waitingIn (s : State) : Option WSlot → List Extent
  | none => s.clearRetiring
  | some w => (s.window w).retiring

/-- The pool of a state. -/
def State.pool (s : State) : Pool :=
  { st := fun e => (s.entry e).st, held := s.heldBy, waiting := s.waitingIn, free := s.freeList, wipe := s.wipeList
    reloc := s.relocList, current := s.wpe.current, live := s.rle.live }

/-- Each extent is in exactly the place its state says. -/
structure Pool.Coherent (q : Pool) : Prop where
  freeNodup : q.free.Nodup
  wipeNodup : q.wipe.Nodup
  relocNodup : q.reloc.Nodup
  free : ∀ e, e ∈ q.free ↔ q.st e = .free
  wipe : ∀ e, e ∈ q.wipe ↔ q.st e = .dirty
  reloc : ∀ e ∈ q.reloc, (q.st e).isBound = true
  current : ∀ e, q.st e = .wiping ↔ q.current = some e
  held : ∀ e h i, (q.st e).place = some (h, i) ↔ (q.held h)[i]? = some e
  moving : ∀ e, (q.st e).isMoving = true ↔ ∃ t, q.live = some (e, t)
  target : ∀ e, q.st e = .target ↔ ∃ f, q.live = some (f, e)
  waitingNodup : ∀ o, (q.waiting o).Nodup
  waitsOnce : ∀ o o' e, e ∈ q.waiting o → e ∈ q.waiting o' → o = o'
  waits : ∀ e, (∃ o, e ∈ q.waiting o) ↔ q.st e = .retiring

variable {s : State}

theorem State.placesAgree_iff (s : State) : s.PlacesAgree ∧ s.PlacesCurrent ↔
    ∀ e h i, (s.entry e).st.place = some (h, i) ↔ (s.heldBy h)[i]? = some e := by
  have hheld : ∀ (e : Extent) (h : Handle) (i : Nat), (s.heldBy h)[i]? = some e ↔
      h = s.handleOf h.slot ∧ (s.window h.slot).extents[i]? = some e := by
    intro e h i
    unfold State.heldBy
    split
    · next hh => exact ⟨fun hi => ⟨hh, hi⟩, fun hi => hi.2⟩
    · next hh => exact iff_of_false nofun fun hi => hh hi.1
  simp only [hheld]
  constructor
  · rintro ⟨hagree, hcurrent⟩ e h i
    constructor
    · intro hp
      have hh := hcurrent e h i hp
      exact ⟨hh, (hagree e h.slot i).1 (hh ▸ hp)⟩
    · rintro ⟨hh, he⟩
      rw [hh]
      exact (hagree e h.slot i).2 he
  · refine fun h => ⟨fun e w i => ?_, fun e hd i hp => ((h e hd i).1 hp).1⟩
    rw [h e (s.handleOf w) i]
    exact ⟨fun hr => hr.2, fun hr => ⟨rfl, hr⟩⟩

theorem State.retiringAgrees_iff (s : State) : s.RetiringAgrees ↔
    (∀ o, (s.waitingIn o).Nodup) ∧ (∀ o o' e, e ∈ s.waitingIn o → e ∈ s.waitingIn o' → o = o') ∧
      ∀ e, (∃ o, e ∈ s.waitingIn o) ↔ (s.entry e).st = .retiring := by
  have hall : s.allRetiring = ((List.finRange 128).flatMap fun w => (s.window w).retiring) ++ s.clearRetiring := by
    unfold State.allRetiring State.clearRetiring
    cases s.clearRec <;> rfl
  have hmem : ∀ e, e ∈ s.allRetiring ↔ ∃ o, e ∈ s.waitingIn o := by
    intro e
    simp [hall, Option.exists, State.waitingIn, or_comm]
  simp only [State.RetiringAgrees, hmem]
  rw [← and_assoc]
  refine and_congr_left fun _ => ?_
  rw [hall, List.nodup_append, List.nodup_flatMap]
  constructor
  · rintro ⟨⟨hnodup, hpair⟩, hclear, hdisj⟩
    have : Std.Symm (Function.onFun List.Disjoint fun w => (s.window w).retiring) := ⟨fun _ _ h => h.symm⟩
    have hsep : ∀ w e, e ∈ (s.window w).retiring → e ∉ s.clearRetiring := fun w e hw hc =>
      hdisj e (List.mem_flatMap.2 ⟨w, List.mem_finRange w, hw⟩) e hc rfl
    refine ⟨fun o => ?_, fun o o' e ho ho' => ?_⟩
    · cases o with
      | none => exact hclear
      | some w => exact hnodup w (List.mem_finRange w)
    · cases o with
      | none =>
        cases o' with
        | none => rfl
        | some v => exact absurd ho (hsep v e ho')
      | some w =>
        cases o' with
        | none => exact absurd ho' (hsep w e ho)
        | some v =>
          by_contra hne
          exact hpair.forall (List.mem_finRange w) (List.mem_finRange v) (fun he => hne (he ▸ rfl)) ho ho'
  · rintro ⟨hnodup, hone⟩
    refine ⟨⟨fun w _ => hnodup (some w), ?_⟩, hnodup none, fun e he f hf hef => ?_⟩
    · exact (List.nodup_finRange 128).pairwise_of_forall_ne fun w _ v _ hne e hw hv =>
        hne (Option.some.inj (hone (some w) (some v) e hw hv))
    · obtain ⟨w, -, hw⟩ := List.mem_flatMap.1 he
      cases hone (some w) none e hw (hef ▸ hf)

theorem State.coherent_iff (s : State) : s.pool.Coherent ↔
    s.ListsAgree ∧ s.PlacesAgree ∧ s.PlacesCurrent ∧ s.EngineAgrees ∧ s.RetiringAgrees := by
  rw [State.retiringAgrees_iff]
  constructor
  · intro h
    obtain ⟨h1, h2⟩ := s.placesAgree_iff.2 h.held
    exact ⟨⟨h.freeNodup, h.wipeNodup, h.relocNodup, h.free, h.wipe, h.reloc, h.current⟩, h1, h2,
      ⟨h.moving, h.target⟩, h.waitingNodup, h.waitsOnce, h.waits⟩
  · rintro ⟨⟨h1, h2, h3, h4, h5, h6, h7⟩, h8, h9, ⟨h10, h11⟩, h12, h13, h14⟩
    exact ⟨h1, h2, h3, h4, h5, h6, h7, s.placesAgree_iff.1 ⟨h8, h9⟩, h10, h11, h12, h13, h14⟩

theorem State.clearRetiring_congr {t : State} (hc : t.clearRec.map ClearRecord.work = s.clearRec.map ClearRecord.work) :
    t.clearRetiring = s.clearRetiring := by
  have hr : ∀ u : State, u.clearRetiring = ((u.clearRec.map ClearRecord.work).map fun x => x.2.1).getD [] := by
    intro u
    unfold State.clearRetiring
    cases u.clearRec <;> rfl
  rw [hr, hr, hc]

end Agreement

section Moves

variable {q : Pool}

theorem Pool.Coherent.heldNodup (h : q.Coherent) (g : Handle) : (q.held g).Nodup := by
  rw [List.nodup_iff_getElem?_ne_getElem?]
  intro i j hij hj heq
  have hj' := List.getElem?_eq_getElem hj
  have h1 := (h.held _ g i).2 (heq.trans hj')
  rw [(h.held _ g j).2 hj'] at h1
  cases h1
  omega

theorem Pool.Coherent.place_of_mem (h : q.Coherent) {e : Extent} {g : Handle} (he : e ∈ q.held g) :
    ∃ i, (q.st e).place = some (g, i) := by
  obtain ⟨i, hi⟩ := List.mem_iff_getElem?.1 he
  exact ⟨i, (h.held e g i).2 hi⟩

theorem ExtState.place_of_isBound {x : ExtState} (h : x.isBound = true) : ∃ p, x.place = some p := by
  cases x <;> simp [ExtState.isBound, ExtState.place] at h ⊢

theorem ExtState.place_of_isMoving {x : ExtState} (h : x.isMoving = true) : ∃ p, x.place = some p := by
  cases x <;> simp [ExtState.isMoving, ExtState.place] at h ⊢

/-- An extent outside windows, retiring lists and relocations changes its state; the lists follow. -/
theorem Pool.Coherent.recolor (h : q.Coherent) {e : Extent} {c : ExtState} {free wipe : List Extent}
    {current : Option Extent} (hold : (q.st e).place = none ∧ q.st e ≠ .target ∧ q.st e ≠ .retiring)
    (hnew : c.place = none ∧ c ≠ .target ∧ c ≠ .retiring) (hfree : free.Nodup) (hwipe : wipe.Nodup)
    (hf : ∀ x, x ∈ free ↔ (if x = e then c else q.st x) = .free)
    (hw : ∀ x, x ∈ wipe ↔ (if x = e then c else q.st x) = .dirty)
    (hc : ∀ x, (if x = e then c else q.st x) = .wiping ↔ current = some x) :
    Pool.Coherent { q with
      st := fun x => if x = e then c else q.st x, free := free, wipe := wipe, current := current } := by
  have hnone : ∀ y : ExtState, y.isMoving = true → y.place ≠ none := fun y hy => by
    obtain ⟨p, hp⟩ := ExtState.place_of_isMoving hy
    simp [hp]
  have hreloc : e ∉ q.reloc := fun he => by
    obtain ⟨p, hp⟩ := ExtState.place_of_isBound (h.reloc e he)
    simp [hp] at hold
  refine ⟨hfree, hwipe, h.relocNodup, hf, hw, fun x hx => ?_, hc, fun x g i => ?_, fun x => ?_, fun x => ?_,
    h.waitingNodup, h.waitsOnce, fun x => ?_⟩ <;> dsimp only at *
  · rw [if_neg fun he : x = e => hreloc (he ▸ hx)]
    exact h.reloc x hx
  · rw [← h.held]
    split
    · next he => simp [he, hnew.1, hold.1]
    · rfl
  · rw [← h.moving]
    split
    · next he =>
      rw [he]
      exact iff_of_false (fun hm => hnone _ hm hnew.1) fun hm => hnone _ hm hold.1
    · rfl
  · rw [← h.target]
    split
    · next he => simp [he, hnew.2.1, hold.2.1]
    · rfl
  · rw [h.waits]
    split
    · next he => simp [he, hnew.2.2, hold.2.2]
    · rfl

/-- The Wipe List head becomes the extent of the Wipe Engine (R41). -/
def Pool.wipeTake (q : Pool) (e : Extent) (rest : List Extent) : Pool :=
  { q with st := fun x => if x = e then .wiping else q.st x, wipe := rest, current := some e }

theorem Pool.Coherent.wipeTake (h : q.Coherent) {e : Extent} {rest : List Extent} (hl : q.wipe = e :: rest)
    (hc : q.current = none) : (q.wipeTake e rest).Coherent := by
  have hd : q.st e = .dirty := (h.wipe e).1 (by simp [hl])
  have hn := List.nodup_cons.1 (hl ▸ h.wipeNodup)
  refine h.recolor (by simp [hd, ExtState.place]) (by simp [ExtState.place]) h.freeNodup hn.2 (fun x => ?_)
    (fun x => ?_) fun x => ?_
  · rw [h.free]
    split
    · next he => simp [he, hd]
    · rfl
  · split
    · next he => simp [he, hn.1]
    · next he =>
      rw [← h.wipe x, hl]
      simp [he]
  · split
    · next he => simp [he]
    · next he => simp [h.current, hc, Ne.symm he]

/-- The end of a wipe: the extent is FREE at the Free List tail, or QUARANTINED (R30, R43). -/
def Pool.wiped (q : Pool) (e : Extent) (failed : Bool) : Pool :=
  { q with
    st := fun x => if x = e then (if failed then .quarantined .verify else .free) else q.st x
    free := if failed then q.free else q.free ++ [e]
    current := none }

theorem Pool.Coherent.wiped (h : q.Coherent) {e : Extent} (hc : q.current = some e) (failed : Bool) :
    (q.wiped e failed).Coherent := by
  have hw : q.st e = .wiping := (h.current e).2 hc
  have hnot : e ∉ q.free := by simp [h.free, hw]
  refine h.recolor (by simp [hw, ExtState.place]) (by cases failed <;> simp [ExtState.place]) ?_ h.wipeNodup
    (fun x => ?_) (fun x => ?_) fun x => ?_
  · cases failed
    · simp only [Bool.false_eq_true, if_false]
      exact h.freeNodup.append (List.nodup_singleton e) (by simpa using hnot)
    · exact h.freeNodup
  · by_cases hx : x = e <;> cases failed <;> simp [hx, hnot, h.free]
  · rw [h.wipe]
    by_cases hx : x = e <;> cases failed <;> simp [hx, hw]
  · by_cases hx : x = e
    · cases failed <;> simp [hx]
    · simp [hx, h.current, hc, Ne.symm hx]

/-- A FREE or DIRTY extent leaves its list for the Quarantine Set (R168). -/
def Pool.quarantine (q : Pool) (e : Extent) : Pool :=
  { q with
    st := fun x => if x = e then .quarantined .supervisor else q.st x
    free := q.free.filter fun x => decide (x ≠ e)
    wipe := q.wipe.filter fun x => decide (x ≠ e) }

theorem Pool.Coherent.quarantine (h : q.Coherent) {e : Extent} (he : q.st e = .free ∨ q.st e = .dirty) :
    (q.quarantine e).Coherent := by
  have hout : (q.st e).place = none ∧ q.st e ≠ .target ∧ q.st e ≠ .retiring ∧ q.st e ≠ .wiping := by
    rcases he with he | he <;> simp [he, ExtState.place]
  obtain ⟨hplace, htarget, hretiring, hwiping⟩ := hout
  refine h.recolor ⟨hplace, htarget, hretiring⟩ (by simp [ExtState.place]) (h.freeNodup.filter _)
    (h.wipeNodup.filter _) (fun x => ?_) (fun x => ?_) fun x => ?_
  · by_cases hx : x = e <;> simp [hx, h.free]
  · by_cases hx : x = e <;> simp [hx, h.wipe]
  · rw [← h.current]
    by_cases hx : x = e <;> simp [hx, hwiping]

/-- A QUARANTINED extent becomes DIRTY at the Wipe List tail (R168). -/
def Pool.restore (q : Pool) (e : Extent) : Pool :=
  { q with st := fun x => if x = e then .dirty else q.st x, wipe := q.wipe ++ [e] }

theorem Pool.Coherent.restore (h : q.Coherent) {e : Extent} (he : (q.st e).isQuarantined = true) :
    (q.restore e).Coherent := by
  have hout : (q.st e).place = none ∧ q.st e ≠ .target ∧ q.st e ≠ .retiring ∧ q.st e ≠ .wiping ∧ q.st e ≠ .free ∧
      q.st e ≠ .dirty := by
    cases hs : q.st e <;> simp [hs, ExtState.isQuarantined, ExtState.place] at he ⊢
  obtain ⟨hplace, htarget, hretiring, hwiping, hfree, hdirty⟩ := hout
  have hnot : e ∉ q.wipe := by simpa [h.wipe] using hdirty
  refine h.recolor ⟨hplace, htarget, hretiring⟩ (by simp [ExtState.place]) h.freeNodup
    (h.wipeNodup.append (List.nodup_singleton e) (by simpa using hnot)) (fun x => ?_) (fun x => ?_) fun x => ?_
  · rw [h.free]
    by_cases hx : x = e <;> simp [hx, hfree]
  · by_cases hx : x = e <;> simp [hx, h.wipe]
  · rw [← h.current]
    by_cases hx : x = e <;> simp [hx, hwiping]

/-- Extents join the Relocation List tail (R32). -/
def Pool.list (q : Pool) (l : List Extent) : Pool := { q with reloc := q.reloc ++ l }

theorem Pool.Coherent.list (h : q.Coherent) {l : List Extent} (hn : l.Nodup)
    (hl : ∀ e ∈ l, (q.st e).isBound = true ∧ e ∉ q.reloc) : (q.list l).Coherent :=
  { h with
    relocNodup := h.relocNodup.append hn fun e he hl' => (hl e hl').2 he
    reloc := fun e he => (List.mem_append.1 he).elim (h.reloc e) fun hl' => (hl e hl').1 }

/-- The end of a drain: the extents of its retiring list become DIRTY and join the Wipe List tail (R38, R39). -/
def Pool.drained (q : Pool) (o : Option WSlot) : Pool :=
  { q with
    st := fun x => if x ∈ q.waiting o then .dirty else q.st x
    wipe := q.wipe ++ q.waiting o
    waiting := fun o' => if o' = o then [] else q.waiting o' }

theorem Pool.Coherent.drained (h : q.Coherent) (o : Option WSlot) : (q.drained o).Coherent := by
  have hret : ∀ x ∈ q.waiting o, q.st x = .retiring := fun x hx => (h.waits x).1 ⟨o, hx⟩
  have hkeep : ∀ x (P : ExtState → Prop), ¬ P .dirty → ¬ P .retiring →
      (P (if x ∈ q.waiting o then .dirty else q.st x) ↔ P (q.st x)) := by
    intro x P hd hr
    split
    · next hx => exact iff_of_false hd (hret x hx ▸ hr)
    · rfl
  have hsep : q.wipe.Disjoint (q.waiting o) := fun x hx hw => by
    have := (h.wipe x).1 hx
    rw [hret x hw] at this
    cases this
  refine ⟨h.freeNodup, h.wipeNodup.append (h.waitingNodup o) hsep, h.relocNodup, fun x => ?_, fun x => ?_,
    fun x hx => ?_, fun x => ?_, fun x g i => ?_, fun x => ?_, fun x => ?_, fun o' => ?_,
    fun o' o'' x hx hx' => ?_, fun x => ?_⟩ <;> dsimp only [Pool.drained] at *
  · rw [hkeep x (· = .free) nofun nofun]
    exact h.free x
  · rw [List.mem_append, h.wipe]
    split
    · next hx => simp [hx]
    · next hx => simp [hx]
  · rw [hkeep x (·.isBound = true) nofun nofun]
    exact h.reloc x hx
  · rw [hkeep x (· = .wiping) nofun nofun]
    exact h.current x
  · rw [hkeep x (·.place = some (g, i)) nofun nofun]
    exact h.held x g i
  · rw [hkeep x (·.isMoving = true) nofun nofun]
    exact h.moving x
  · rw [hkeep x (· = .target) nofun nofun]
    exact h.target x
  · split
    · exact List.nodup_nil
    · exact h.waitingNodup o'
  · split at hx
    · cases hx
    · split at hx'
      · cases hx'
      · exact h.waitsOnce o' o'' x hx hx'
  · split
    · next hx =>
      refine iff_of_false ?_ nofun
      rintro ⟨o', ho'⟩
      split at ho'
      · cases ho'
      · next hne => exact hne (h.waitsOnce o' o x ho' hx)
    · next hx =>
      rw [← h.waits]
      refine exists_congr fun o' => ?_
      split
      · next ho => simp [ho, hx]
      · rfl

end Moves

end Sys2Proof.Machine
end

section
/-!
The moves of extents into and out of windows: OPEN and GROW bind, a relocation starts and swaps, SHRINK and closes
let go, CLEAR empties every window (R28, R38, R39, R85 to R91, R139, R146, R149).
-/

namespace Sys2Proof.Machine

section WindowMoves

variable {q : Pool}

theorem getElem?_append_of_notMem {α : Type} {k l : List α} {e : α} (he : e ∉ l) (i : Nat) :
    (k ++ l)[i]? = some e ↔ k[i]? = some e := by
  by_cases hi : i < k.length
  · rw [List.getElem?_append_left hi]
  · rw [List.getElem?_append_right (by omega), List.getElem?_eq_none (by omega : k.length ≤ i)]
    exact ⟨fun h => absurd (List.mem_of_getElem? h) he, nofun⟩

/-- The ordinal at which an appended list without repetition has one of its extents. -/
theorem getElem?_append_iff_idxOf {k l : List Extent} {e : Extent} (hn : l.Nodup) (hk : e ∉ k) (he : e ∈ l) (i : Nat) :
    (k ++ l)[i]? = some e ↔ k.length + l.idxOf e = i := by
  have hlt := List.idxOf_lt_length_iff.2 he
  by_cases hi : i < k.length
  · rw [List.getElem?_append_left hi]
    exact ⟨fun h => absurd (List.mem_of_getElem? h) hk, fun h => by omega⟩
  · rw [List.getElem?_append_right (by omega)]
    constructor
    · intro h
      obtain ⟨hj, rfl⟩ := List.getElem?_eq_some_iff.1 h
      rw [hn.idxOf_getElem]
      omega
    · rintro rfl
      rw [Nat.add_sub_cancel_left, List.getElem?_eq_getElem hlt, List.getElem_idxOf]

/-- The extents at the Free List head join a window at its highest ordinals (R28). -/
def Pool.bind (q : Pool) (g : Handle) (n : Nat) : Pool :=
  { q with
    st := fun x => if x ∈ q.free.take n then .bound g ((q.held g).length + (q.free.take n).idxOf x) else q.st x
    held := fun g' => if g' = g then q.held g ++ q.free.take n else q.held g'
    free := q.free.drop n }

theorem Pool.Coherent.bind (h : q.Coherent) (g : Handle) (n : Nat) : (q.bind g n).Coherent := by
  have hnodup : (q.free.take n ++ q.free.drop n).Nodup := by
    rw [List.take_append_drop]
    exact h.freeNodup
  obtain ⟨htake, hdrop, hdisj⟩ := List.nodup_append'.1 hnodup
  have hfree : ∀ x ∈ q.free.take n, q.st x = .free := fun x hx => (h.free x).1 (List.mem_of_mem_take hx)
  have hkeep : ∀ x (P : ExtState → Prop), (∀ i, ¬ P (.bound g i)) → ¬ P .free →
      (P ((q.bind g n).st x) ↔ P (q.st x)) := by
    intro x P hb hf
    dsimp only [Pool.bind]
    split
    · next hx => exact iff_of_false (hb _) (hfree x hx ▸ hf)
    · rfl
  refine ⟨hdrop, h.wipeNodup, h.relocNodup, fun x => ?_, fun x => ?_, fun x hx => ?_, fun x => ?_, fun x g' i => ?_,
    fun x => ?_, fun x => ?_, h.waitingNodup, h.waitsOnce, fun x => ?_⟩
  · dsimp only [Pool.bind]
    split
    · next hx => exact iff_of_false (fun hd => hdisj hx hd) nofun
    · next hx =>
      rw [← h.free, ← List.take_append_drop n q.free, List.mem_append, List.take_append_drop]
      simp [hx]
  · rw [hkeep x (· = .dirty) nofun nofun]
    exact h.wipe x
  · dsimp only [Pool.bind]
    split
    · rfl
    · exact h.reloc x hx
  · rw [hkeep x (· = .wiping) nofun nofun]
    exact h.current x
  · dsimp only [Pool.bind]
    split
    · next hx =>
      have hout : ∀ g', x ∉ q.held g' := fun g' hm => by
        obtain ⟨i, hi⟩ := h.place_of_mem hm
        rw [hfree x hx] at hi
        cases hi
      split
      · next hg =>
        rw [getElem?_append_iff_idxOf htake (hout g) hx]
        simp [ExtState.place, hg]
      · next hg =>
        refine iff_of_false (fun hp => ?_) fun hi => hout g' (List.mem_of_getElem? hi)
        cases hp
        exact hg rfl
    · next hx =>
      rw [h.held]
      split
      · next hg => rw [hg, getElem?_append_of_notMem hx]
      · rfl
  · rw [hkeep x (·.isMoving = true) (fun _ => nofun) nofun]
    exact h.moving x
  · rw [hkeep x (· = .target) (fun _ => nofun) nofun]
    exact h.target x
  · rw [hkeep x (· = .retiring) (fun _ => nofun) nofun]
    exact h.waits x

/-- The extent state once its relocation starts (R139). -/
def ExtState.moved : ExtState → ExtState
  | .bound g i => .moving g i
  | .free => .free
  | .moving g i => .moving g i
  | .target => .target
  | .retiring => .retiring
  | .dirty => .dirty
  | .wiping => .wiping
  | .quarantined c => .quarantined c

/-- A relocation starts with the heads of the two lists (R139). -/
def Pool.start (q : Pool) (src tgt : Extent) : Pool :=
  { q with
    st := fun x => if x = tgt then .target else if x = src then (q.st x).moved else q.st x
    reloc := q.reloc.tail, free := q.free.tail, live := some (src, tgt) }

theorem Pool.Coherent.start (h : q.Coherent) {src tgt : Extent} {rest free : List Extent}
    (hr : q.reloc = src :: rest) (hf : q.free = tgt :: free) (hl : q.live = none) : (q.start src tgt).Coherent := by
  have htgt : q.st tgt = .free := (h.free tgt).1 (by simp [hf])
  obtain ⟨g₀, i₀, hsrc⟩ : ∃ g i, q.st src = .bound g i := by
    have := h.reloc src (by simp [hr])
    cases hs : q.st src <;> simp [hs, ExtState.isBound] at this ⊢
  have hne : src ≠ tgt := by
    rintro rfl
    rw [htgt] at hsrc
    cases hsrc
  have hst : (q.start src tgt).st tgt = .target := if_pos rfl
  have hss : (q.start src tgt).st src = .moving g₀ i₀ := by simp [Pool.start, hne, hsrc, ExtState.moved]
  have hso : ∀ x, x ≠ src → x ≠ tgt → (q.start src tgt).st x = q.st x := fun x h1 h2 => by simp [Pool.start, h1, h2]
  have hfn := List.nodup_cons.1 (hf ▸ h.freeNodup)
  have hrn := List.nodup_cons.1 (hr ▸ h.relocNodup)
  have hmoving : ∀ x, (q.st x).isMoving = false := fun x => by simp [← Bool.not_eq_true, h.moving, hl]
  have htarget : ∀ x, q.st x ≠ .target := fun x => by simp [h.target, hl]
  have hkeep : ∀ x (P : ExtState → Prop), (∀ g i, ¬ P (.bound g i) ∧ ¬ P (.moving g i)) → ¬ P .free → ¬ P .target →
      (P ((q.start src tgt).st x) ↔ P (q.st x)) := by
    intro x P hb hfree ht
    by_cases h1 : x = src
    · subst h1
      rw [hss, hsrc]
      exact iff_of_false (hb _ _).2 (hb _ _).1
    · by_cases h2 : x = tgt
      · subst h2
        rw [hst, htgt]
        exact iff_of_false ht hfree
      · rw [hso x h1 h2]
  refine ⟨h.freeNodup.tail, h.wipeNodup, h.relocNodup.tail, fun x => ?_, fun x => ?_, fun x hx => ?_, fun x => ?_,
    fun x g i => ?_, fun x => ?_, fun x => ?_, h.waitingNodup, h.waitsOnce, fun x => ?_⟩
  · show x ∈ q.free.tail ↔ _
    by_cases h2 : x = tgt
    · subst h2
      simp [hf, hfn.1, hst]
    · by_cases h1 : x = src
      · subst h1
        rw [hss]
        refine iff_of_false (fun hm => ?_) nofun
        have := (h.free x).1 (List.mem_of_mem_tail hm)
        rw [hsrc] at this
        cases this
      · rw [hso x h1 h2, ← h.free, hf]
        simp [h2]
  · rw [hkeep x (· = .dirty) (fun _ _ => ⟨nofun, nofun⟩) nofun nofun]
    exact h.wipe x
  · have hx' : x ∈ rest := by simpa [Pool.start, hr] using hx
    have h1 : x ≠ src := fun he => hrn.1 (he ▸ hx')
    have hb := h.reloc x (by simp [hr, hx'])
    have h2 : x ≠ tgt := by
      rintro rfl
      simp [htgt, ExtState.isBound] at hb
    rw [hso x h1 h2]
    exact hb
  · rw [hkeep x (· = .wiping) (fun _ _ => ⟨nofun, nofun⟩) nofun nofun]
    exact h.current x
  · have hplace : ((q.start src tgt).st x).place = (q.st x).place := by
      by_cases h1 : x = src
      · subst h1
        rw [hss, hsrc]
        rfl
      · by_cases h2 : x = tgt
        · subst h2
          rw [hst, htgt]
          rfl
        · rw [hso x h1 h2]
    rw [hplace]
    exact h.held x g i
  · show _ ↔ ∃ t, some (src, tgt) = some (x, t)
    by_cases h1 : x = src
    · subst h1
      simp [hss, ExtState.isMoving]
    · by_cases h2 : x = tgt
      · subst h2
        simp [hst, ExtState.isMoving, hne]
      · simp [hso x h1 h2, hmoving, Ne.symm h1]
  · show _ ↔ ∃ f, some (src, tgt) = some (f, x)
    by_cases h1 : x = src
    · subst h1
      simp [hss, Ne.symm hne]
    · by_cases h2 : x = tgt
      · subst h2
        simp [hst]
      · simp [hso x h1 h2, htarget, Ne.symm h2]
  · rw [hkeep x (· = .retiring) (fun _ _ => ⟨nofun, nofun⟩) nofun nofun]
    exact h.waits x

/-- The swap of source and target (R146). -/
def Pool.swap (q : Pool) (src tgt : Extent) (g : Handle) (i : Nat) : Pool :=
  { q with
    st := fun x => if x = src then .quarantined .relocated else if x = tgt then .bound g i else q.st x
    held := fun g' => if g' = g then (q.held g).set i tgt else q.held g'
    live := none }

theorem Pool.Coherent.swap (h : q.Coherent) {src tgt : Extent} {g : Handle} {i : Nat}
    (hl : q.live = some (src, tgt)) (hs : q.st src = .moving g i) : (q.swap src tgt g i).Coherent := by
  have htgt : q.st tgt = .target := (h.target tgt).2 ⟨src, hl⟩
  have hne : tgt ≠ src := by
    rintro rfl
    rw [htgt] at hs
    cases hs
  have hat : (q.held g)[i]? = some src := (h.held src g i).1 (by rw [hs]; rfl)
  have hlt : i < (q.held g).length := (List.getElem?_eq_some_iff.1 hat).1
  have hss : (q.swap src tgt g i).st src = .quarantined .relocated := if_pos rfl
  have hst : (q.swap src tgt g i).st tgt = .bound g i := by simp [Pool.swap, hne]
  have hso : ∀ x, x ≠ src → x ≠ tgt → (q.swap src tgt g i).st x = q.st x := fun x h1 h2 => by simp [Pool.swap, h1, h2]
  have hkeep : ∀ x (P : ExtState → Prop), ¬ P (.quarantined .relocated) →
      (∀ g i, ¬ P (.moving g i) ∧ ¬ P (.bound g i)) →
      ¬ P .target → (P ((q.swap src tgt g i).st x) ↔ P (q.st x)) := by
    intro x P hq hb ht
    by_cases h1 : x = src
    · subst h1
      rw [hss, hs]
      exact iff_of_false hq (hb _ _).1
    · by_cases h2 : x = tgt
      · subst h2
        rw [hst, htgt]
        exact iff_of_false (hb _ _).2 ht
      · rw [hso x h1 h2]
  refine ⟨h.freeNodup, h.wipeNodup, h.relocNodup, fun x => ?_, fun x => ?_, fun x hx => ?_, fun x => ?_,
    fun x g' j => ?_, fun x => ?_, fun x => ?_, h.waitingNodup, h.waitsOnce, fun x => ?_⟩
  · rw [hkeep x (· = .free) nofun (fun _ _ => ⟨nofun, nofun⟩) nofun]
    exact h.free x
  · rw [hkeep x (· = .dirty) nofun (fun _ _ => ⟨nofun, nofun⟩) nofun]
    exact h.wipe x
  · have hb := h.reloc x hx
    by_cases h1 : x = src
    · rw [h1, hs] at hb
      cases hb
    · by_cases h2 : x = tgt
      · rw [h2, hst]
        rfl
      · rw [hso x h1 h2]
        exact hb
  · rw [hkeep x (· = .wiping) nofun (fun _ _ => ⟨nofun, nofun⟩) nofun]
    exact h.current x
  · have hheld : ((q.swap src tgt g i).held g')[j]? = some x ↔
        if g' = g ∧ j = i then x = tgt else (q.held g')[j]? = some x := by
      dsimp only [Pool.swap]
      by_cases hg : g' = g
      · subst hg
        rw [if_pos rfl, List.getElem?_set]
        by_cases hj : i = j
        · subst hj
          simp [hlt, eq_comm]
        · simp [hj, Ne.symm hj]
      · simp [hg]
    rw [hheld]
    by_cases h1 : x = src
    · subst h1
      rw [hss]
      refine iff_of_false nofun fun hr => ?_
      split at hr
      · exact hne hr.symm
      · next hn =>
        have := (h.held x g' j).2 hr
        rw [hs] at this
        cases this
        exact hn ⟨rfl, rfl⟩
    · by_cases h2 : x = tgt
      · subst h2
        rw [hst]
        have hout : (q.held g')[j]? ≠ some x := fun hr => by
          have := (h.held x g' j).2 hr
          rw [htgt] at this
          cases this
        simp [ExtState.place, hout, eq_comm]
      · rw [hso x h1 h2, h.held]
        split
        · next hc =>
          obtain ⟨rfl, rfl⟩ := hc
          simp [hat, h2, Ne.symm h1]
        · rfl
  · show _ ↔ ∃ t, none = some (x, t)
    by_cases h1 : x = src
    · simp [h1, hss, ExtState.isMoving]
    · by_cases h2 : x = tgt
      · simp [h2, hst, ExtState.isMoving]
      · rw [hso x h1 h2, h.moving, hl]
        simp [Ne.symm h1]
  · show _ ↔ ∃ f, none = some (f, x)
    by_cases h1 : x = src
    · simp [h1, hss]
    · by_cases h2 : x = tgt
      · simp [h2, hst]
      · rw [hso x h1 h2, h.target, hl]
        simp [Ne.symm h2]
  · rw [hkeep x (· = .retiring) nofun (fun _ _ => ⟨nofun, nofun⟩) nofun]
    exact h.waits x

/-- The extents that become RETIRING when a list of extents leaves its window: with the source of a relocation its
target (R149). -/
def Pool.leaving (q : Pool) (l : List Extent) : List Extent :=
  match q.live with
  | none => l
  | some (src, tgt) => if src ∈ l then l ++ [tgt] else l

/-- The relocation that goes on when these extents leave their window. -/
def Pool.liveWithout (q : Pool) (l : List Extent) : Option (Extent × Extent) :=
  q.live.filter fun x => decide (x.1 ∉ l)

/-- Extents leave a window, which keeps the others, for its retiring list (R85, R87, R89). -/
def Pool.part (q : Pool) (g : Handle) (w : WSlot) (kept l r : List Extent) : Pool :=
  { q with
    st := fun x => if x ∈ q.leaving l then .retiring else q.st x
    held := fun g' => if g' = g then kept else q.held g'
    waiting := fun o => if o = some w then r else q.waiting o
    reloc := q.reloc.filter fun x => decide (x ∉ l)
    live := q.liveWithout l }

theorem Pool.mem_leaving {l : List Extent} {x : Extent} :
    x ∈ q.leaving l ↔ x ∈ l ∨ ∃ src, q.live = some (src, x) ∧ src ∈ l := by
  unfold Pool.leaving
  cases hl : q.live with
  | none => simp
  | some y =>
    obtain ⟨src, tgt⟩ := y
    by_cases hs : src ∈ l
    · simp only [hs, if_true, List.mem_append, List.mem_singleton, Option.some.injEq, Prod.mk.injEq]
      exact or_congr_right ⟨fun hx => ⟨src, ⟨rfl, hx.symm⟩, hs⟩, fun ⟨_, ⟨_, hx⟩, _⟩ => hx.symm⟩
    · simp only [hs, if_false, Option.some.injEq, Prod.mk.injEq]
      exact ⟨Or.inl, fun hx => hx.elim id fun ⟨f, ⟨hf, _⟩, hm⟩ => absurd (hf ▸ hm) hs⟩

theorem Pool.liveWithout_eq_some {l : List Extent} {x : Extent × Extent} :
    q.liveWithout l = some x ↔ q.live = some x ∧ x.1 ∉ l := by
  simp [Pool.liveWithout, Option.filter_eq_some_iff]

theorem Pool.Coherent.part (h : q.Coherent) {g : Handle} {w : WSlot} {kept l r : List Extent}
    (hsplit : q.held g = kept ++ l) (hr : r.Nodup)
    (hmem : ∀ x, x ∈ r ↔ x ∈ q.waiting (some w) ∨ x ∈ q.leaving l) : (q.part g w kept l r).Coherent := by
  have hplace : ∀ x ∈ l, ∃ i, (q.st x).place = some (g, i) := fun x hx =>
    h.place_of_mem (by rw [hsplit]; exact List.mem_append_right _ hx)
  have hleave : ∀ x ∈ q.leaving l, (∃ i, (q.st x).place = some (g, i)) ∨ q.st x = .target := by
    intro x hx
    rcases Pool.mem_leaving.1 hx with hx | ⟨src, hl, -⟩
    · exact Or.inl (hplace x hx)
    · exact Or.inr ((h.target x).2 ⟨src, hl⟩)
  have hkeep : ∀ x (P : ExtState → Prop), ¬ P .retiring → (∀ y, P y → y.place = none ∧ y ≠ .target) →
      (P ((q.part g w kept l r).st x) ↔ P (q.st x)) := by
    intro x P hp hq
    dsimp only [Pool.part]
    split
    · next hx =>
      refine iff_of_false hp fun hy => ?_
      obtain ⟨h1, h2⟩ := hq _ hy
      rcases hleave x hx with ⟨i, hi⟩ | ht
      · rw [h1] at hi
        cases hi
      · exact h2 ht
    · rfl
  have hstay : ∀ {x}, x ∉ q.leaving l → x ∉ l := fun hx hxl => hx (Pool.mem_leaving.2 (Or.inl hxl))
  refine ⟨h.freeNodup, h.wipeNodup, h.relocNodup.filter _, fun x => ?_, fun x => ?_, fun x hx => ?_, fun x => ?_,
    fun x g' i => ?_, fun x => ?_, fun x => ?_, fun o => ?_, fun o o' x ho ho' => ?_, fun x => ?_⟩
  · rw [hkeep x (· = .free) nofun fun y hy => hy ▸ ⟨rfl, nofun⟩]
    exact h.free x
  · rw [hkeep x (· = .dirty) nofun fun y hy => hy ▸ ⟨rfl, nofun⟩]
    exact h.wipe x
  · obtain ⟨hx, hnot⟩ : x ∈ q.reloc ∧ x ∉ l := by simpa [Pool.part] using hx
    have hb := h.reloc x hx
    dsimp only [Pool.part]
    rw [if_neg]
    · exact hb
    · intro hm
      rcases Pool.mem_leaving.1 hm with hm | ⟨src, hl, -⟩
      · exact hnot hm
      · rw [(h.target x).2 ⟨src, hl⟩] at hb
        cases hb
  · rw [hkeep x (· = .wiping) nofun fun y hy => hy ▸ ⟨rfl, nofun⟩]
    exact h.current x
  · have hdisj : ∀ x ∈ kept, x ∉ l := fun x hk hl =>
      (List.nodup_append'.1 (hsplit ▸ h.heldNodup g)).2.2 hk hl
    have hsub : ∀ g', x ∈ (q.part g w kept l r).held g' → x ∈ q.held g' ∧ x ∉ l := by
      intro g' hx
      dsimp only [Pool.part] at hx
      split at hx
      · next hg => exact ⟨by rw [hg, hsplit]; exact List.mem_append_left _ hx, hdisj x hx⟩
      · next hg =>
        refine ⟨hx, fun hxl => ?_⟩
        obtain ⟨i, hi⟩ := h.place_of_mem hx
        obtain ⟨j, hj⟩ := hplace x hxl
        rw [hi] at hj
        cases hj
        exact hg rfl
    by_cases hx : x ∈ q.leaving l
    · have hst : (q.part g w kept l r).st x = .retiring := if_pos hx
      rw [hst]
      refine iff_of_false nofun fun hi => ?_
      obtain ⟨hheld, hnot⟩ := hsub g' (List.mem_of_getElem? hi)
      rcases Pool.mem_leaving.1 hx with hxl | ⟨src, hl, -⟩
      · exact hnot hxl
      · obtain ⟨j, hj⟩ := h.place_of_mem hheld
        rw [(h.target x).2 ⟨src, hl⟩] at hj
        cases hj
    · have hst : (q.part g w kept l r).st x = q.st x := if_neg hx
      rw [hst, h.held]
      dsimp only [Pool.part]
      split
      · next hg => rw [hg, hsplit, getElem?_append_of_notMem (hstay hx)]
      · rfl
  · simp only [Pool.part, Pool.liveWithout_eq_some]
    split
    · next hx =>
      refine iff_of_false nofun fun ⟨t, hl, hnot⟩ => ?_
      rcases Pool.mem_leaving.1 hx with hxl | ⟨src, hl', hs⟩
      · exact hnot hxl
      · rw [hl] at hl'
        cases hl'
        exact hnot hs
    · next hx =>
      rw [h.moving]
      exact exists_congr fun t => (and_iff_left (hstay hx)).symm
  · simp only [Pool.part, Pool.liveWithout_eq_some]
    split
    · next hx =>
      refine iff_of_false nofun fun ⟨f, hl, hnot⟩ => ?_
      rcases Pool.mem_leaving.1 hx with hxl | ⟨src, hl', hs⟩
      · obtain ⟨i, hi⟩ := hplace x hxl
        rw [(h.target x).2 ⟨f, hl⟩] at hi
        cases hi
      · rw [hl] at hl'
        cases hl'
        exact hnot hs
    · next hx =>
      rw [h.target]
      exact exists_congr fun f => ⟨fun hl => ⟨hl, fun hf => hx (Pool.mem_leaving.2 (Or.inr ⟨f, hl, hf⟩))⟩, And.left⟩
  · dsimp only [Pool.part]
    split
    · exact hr
    · exact h.waitingNodup o
  · have hnew : ∀ o, x ∈ (q.part g w kept l r).waiting o →
        (o = some w ∧ x ∈ q.leaving l) ∨ x ∈ q.waiting o := by
      intro o hx
      dsimp only [Pool.part] at hx
      split at hx
      · next hw => exact ((hmem x).1 hx).elim (fun hx => Or.inr (hw ▸ hx)) fun hx => Or.inl ⟨hw, hx⟩
      · exact Or.inr hx
    have hsep : ∀ o, x ∈ q.leaving l → x ∉ q.waiting o := fun o hm hw => by
      have hst := (h.waits x).1 ⟨o, hw⟩
      rcases hleave x hm with ⟨i, hi⟩ | ht
      · rw [hst] at hi
        cases hi
      · rw [hst] at ht
        cases ht
    rcases hnew o ho with ⟨hw, hm⟩ | hm <;> rcases hnew o' ho' with ⟨hw', hm'⟩ | hm'
    · rw [hw, hw']
    · exact absurd hm' (hsep o' hm)
    · exact absurd hm (hsep o hm')
    · exact h.waitsOnce o o' x hm hm'
  · have hex : (∃ o, x ∈ (q.part g w kept l r).waiting o) ↔ (∃ o, x ∈ q.waiting o) ∨ x ∈ q.leaving l := by
      constructor
      · rintro ⟨o, ho⟩
        dsimp only [Pool.part] at ho
        split at ho
        · exact ((hmem x).1 ho).imp_left fun hx => ⟨_, hx⟩
        · exact Or.inl ⟨o, ho⟩
      · rintro (⟨o, ho⟩ | hx)
        · by_cases hw : o = some w
          · exact ⟨some w, by simpa [Pool.part] using (hmem x).2 (Or.inl (hw ▸ ho))⟩
          · exact ⟨o, by simpa [Pool.part, hw] using ho⟩
        · exact ⟨some w, by simpa [Pool.part] using (hmem x).2 (Or.inr hx)⟩
    rw [hex, h.waits]
    dsimp only [Pool.part]
    split
    · next hx => simp [hx]
    · next hx => simp [hx]

/-- The extent state after CLEAR (R39). -/
def ExtState.cleared : ExtState → ExtState
  | .bound _ _ | .moving _ _ | .target => .retiring
  | .free => .free
  | .retiring => .retiring
  | .dirty => .dirty
  | .wiping => .wiping
  | .quarantined c => .quarantined c

@[simp] theorem ExtState.place_cleared (y : ExtState) : y.cleared.place = none := by cases y <;> rfl

@[simp] theorem ExtState.isMoving_cleared (y : ExtState) : y.cleared.isMoving = false := by cases y <;> rfl

@[simp] theorem ExtState.cleared_ne_target (y : ExtState) : y.cleared ≠ .target := by cases y <;> nofun

@[simp] theorem ExtState.cleared_eq_free (y : ExtState) : y.cleared = .free ↔ y = .free := by
  cases y <;> simp [ExtState.cleared]

@[simp] theorem ExtState.cleared_eq_dirty (y : ExtState) : y.cleared = .dirty ↔ y = .dirty := by
  cases y <;> simp [ExtState.cleared]

@[simp] theorem ExtState.cleared_eq_wiping (y : ExtState) : y.cleared = .wiping ↔ y = .wiping := by
  cases y <;> simp [ExtState.cleared]

/-- CLEAR takes every extent out of its window, its retiring list and its relocation for the drain of CLEAR (R39,
R152). -/
def Pool.cleared (q : Pool) (r : List Extent) : Pool :=
  { q with
    st := fun x => (q.st x).cleared
    held := fun _ => []
    waiting := fun o => if o = none then r else []
    reloc := []
    live := none }

theorem Pool.Coherent.cleared (h : q.Coherent) {r : List Extent} (hr : r.Nodup)
    (hmem : ∀ x, x ∈ r ↔ (q.st x).cleared = .retiring) : (q.cleared r).Coherent := by
  have hwait : ∀ o x, x ∈ (q.cleared r).waiting o ↔ o = none ∧ x ∈ r := by
    intro o x
    dsimp only [Pool.cleared]
    split
    · next ho => simp [ho]
    · next ho => simp [ho]
  refine ⟨h.freeNodup, h.wipeNodup, List.nodup_nil, fun x => ?_, fun x => ?_, nofun, fun x => ?_, fun x g i => ?_,
    fun x => ?_, fun x => ?_, fun o => ?_, fun o o' x ho ho' => ?_, fun x => ?_⟩
  · simp [Pool.cleared, h.free]
  · simp [Pool.cleared, h.wipe]
  · simp [Pool.cleared, h.current]
  · simp [Pool.cleared]
  · simp [Pool.cleared]
  · simp [Pool.cleared]
  · dsimp only [Pool.cleared]
    split
    · exact hr
    · exact List.nodup_nil
  · rw [((hwait o x).1 ho).1, ((hwait o' x).1 ho').1]
  · simp [Pool.cleared, hmem]

end WindowMoves

end Sys2Proof.Machine
end

section
/-!
What every shared operation keeps of windows, views and pool (`State.Carries`), and the operations that move extents
between lists and engines only.
-/

namespace Sys2Proof.Machine

section Carries

/-- What the invariants of windows, views and pool speak of. -/
@[ext] structure Outline where
  resetn  : Bool
  straps  : Straps
  windows : Vector Window 128
  clear   : Option (DrainSet × List Extent × List WSlot)
  pool    : Pool

/-- Those parts of a state. -/
def State.outline (s : State) : Outline :=
  { resetn := s.resetn, straps := s.straps, windows := s.windows, clear := s.clearRec.map ClearRecord.work
    pool := s.pool }

/-- From `s` to `t` windows stay well formed, views well placed and the pool coherent. -/
structure State.Carries (s t : State) : Prop where
  resetn : t.resetn = s.resetn
  windows : s.WindowsWf → t.WindowsWf
  views : s.WindowsWf → s.ViewsOk → t.ViewsOk
  pool : s.WindowsWf → s.pool.Coherent → t.pool.Coherent

variable {s t u : State}

theorem State.Carries.refl (s : State) : s.Carries s := ⟨rfl, id, fun _ => id, fun _ => id⟩

theorem State.Carries.trans (h : s.Carries t) (h' : t.Carries u) : s.Carries u :=
  ⟨h'.resetn.trans h.resetn, fun hw => h'.windows (h.windows hw),
    fun hw hv => h'.views (h.windows hw) (h.views hw hv), fun hw hp => h'.pool (h.windows hw) (h.pool hw hp)⟩

/-- Windows and CLEAR's drain stay; the pool may change. -/
theorem State.Carries.of_pool (hn : t.resetn = s.resetn) (hs : t.straps = s.straps) (hw : t.windows = s.windows)
    (hc : t.clearRec.map ClearRecord.work = s.clearRec.map ClearRecord.work)
    (hp : s.pool.Coherent → t.pool.Coherent) : s.Carries t :=
  ⟨hn, fun h => h.replace hc fun w => Or.inl (State.window_congr hw w),
    fun _ h => h.narrow hs fun w => by rw [State.window_congr hw]; exact .refl _, fun _ => hp⟩

theorem State.Carries.of_outline (h : t.outline = s.outline) : s.Carries t := by
  obtain ⟨hn, hs, hw, hc, hp⟩ := Outline.mk.inj h
  exact .of_pool hn hs hw hc (hp ▸ id)

/-- A carried state followed by a change outside the outline. -/
theorem State.Carries.quiet (h : s.Carries t) (hu : u.outline = t.outline) : s.Carries u := h.trans (.of_outline hu)

/-- Where the lists, the engines' places and the extents' states stay, and the windows. -/
theorem State.pool_congr (hst : ∀ e, (t.entry e).st = (s.entry e).st) (hw : t.windows = s.windows)
    (hc : t.clearRec.map ClearRecord.work = s.clearRec.map ClearRecord.work) (hfree : t.freeList = s.freeList)
    (hwipe : t.wipeList = s.wipeList) (hreloc : t.relocList = s.relocList) (hcur : t.wpe.current = s.wpe.current)
    (hlive : t.rle.live = s.rle.live) : t.pool = s.pool := by
  refine Pool.ext (funext hst) ?_ (funext fun o => ?_) hfree hwipe hreloc hcur hlive
  · funext h
    show t.heldBy h = s.heldBy h
    unfold State.heldBy State.handleOf
    rw [State.window_congr hw]
  · cases o with
    | none => exact State.clearRetiring_congr hc
    | some w => simp only [State.pool, State.waitingIn, State.window, hw]

end Carries

section Outlines

variable (s : State)

@[simp] theorem State.outline_addAttention (p : Port) (k : Kind) : (s.addAttention p k).outline = s.outline := rfl

@[simp] theorem State.outline_updPort (p : Port) (f : PortUnit → PortUnit) : (s.updPort p f).outline = s.outline := rfl

@[simp] theorem State.outline_mapPorts (f : Port → PortUnit → PortUnit) : (s.mapPorts f).outline = s.outline := rfl

@[simp] theorem State.outline_respond (p : Port) (c : BusCode) (d : Option Word) :
    (s.respond p c d).outline = s.outline := rfl

@[simp] theorem State.outline_recordFault (p : Port) (k : FaultKind) (a : Word) (b : Bool) (h : Option Handle) :
    (s.recordFault p k a b h).outline = s.outline := by
  unfold State.recordFault
  split <;> rfl

@[simp] theorem State.outline_deny (p : Port) (k : FaultKind) (r : Request) (h : Option Handle) :
    (s.deny p k r h).outline = s.outline := by
  unfold State.deny
  rw [State.outline_respond, State.outline_recordFault]

@[simp] theorem State.outline_endHoldWait (q : Port) : (s.endHoldWait q).outline = s.outline := by
  unfold State.endHoldWait
  split
  · rfl
  · dsimp only
    split <;> rfl

@[simp] theorem State.outline_grantMemory : s.grantMemory.outline = s.outline := by
  unfold State.grantMemory
  split
  · split <;> rfl
  · rfl

@[simp] theorem State.outline_tellOwner (w : WSlot) : (s.tellOwner w).outline = s.outline := by
  unfold State.tellOwner
  split <;> rfl

theorem State.outline_abortSlot (p : Port) : (s.abortSlot p).outline = s.outline := by
  have hc : ∀ c : Option ClearRecord, (c.map fun c => { c with slotLive := false }).map ClearRecord.work =
      c.map ClearRecord.work := fun c => by cases c <;> rfl
  unfold State.abortSlot
  dsimp only
  split
  · exact Outline.ext rfl rfl rfl (hc _)
      (State.pool_congr (fun _ => rfl) rfl (hc _) rfl rfl rfl rfl rfl)
  · rfl

/-- An engine record with the same relocation in progress. -/
theorem State.outline_setRle {r : Rle} (h : r.live = s.rle.live) : State.outline { s with rle := r } = s.outline :=
  Outline.ext rfl rfl rfl rfl (State.pool_congr (fun _ => rfl) rfl rfl rfl rfl rfl rfl h)

/-- A Wipe Engine record at the same extent. -/
theorem State.outline_setWpe {r : Wpe} (h : r.current = s.wpe.current) :
    State.outline { s with wpe := r } = s.outline :=
  Outline.ext rfl rfl rfl rfl (State.pool_congr (fun _ => rfl) rfl rfl rfl rfl rfl h rfl)

theorem State.outline_updExtent (e : Extent) (f : Entry → Entry) (h : ∀ x, (f x).st = x.st) :
    (s.updExtent e f).outline = s.outline := by
  refine Outline.ext rfl rfl rfl rfl (State.pool_congr (fun x => ?_) rfl rfl rfl rfl rfl rfl rfl)
  rw [State.entry_updExtent]
  split
  · exact h _
  · rfl

end Outlines

section Engines

variable {s : State}

theorem State.st_updExtent (e x : Extent) (c : ExtState) (f : Entry → Entry) (hf : ∀ y, (f y).st = c) :
    ((s.updExtent e f).entry x).st = if x = e then c else (s.entry x).st := by
  rw [State.entry_updExtent]
  split
  · exact hf _
  · rfl

theorem State.carries_wpeTake (s : State) : s.Carries s.wpeTake := by
  rcases s.wpeTake_cases with h' | ⟨e, rest, hidle, _, hlist, h'⟩
  · rw [h']
    exact .refl s
  have hpool : s.wpeTake.pool = s.pool.wipeTake e rest := by
    rw [h']
    exact Pool.ext (funext fun x => State.st_updExtent e x .wiping _ fun _ => rfl) rfl rfl rfl rfl rfl rfl rfl
  have hcur : s.pool.current = none := by rw [State.pool, hidle]; rfl
  exact .of_pool (by simp) (by simp) (by simp) (by simp) fun h => hpool ▸ h.wipeTake hlist hcur

theorem Entry.toMoving_st (x : Entry) : x.toMoving.st = x.st.moved := by
  unfold Entry.toMoving
  cases hx : x.st <;> simp [ExtState.moved, hx]

theorem State.pool_startRelocation (s : State) (src tgt : Extent) :
    (s.startRelocation src tgt).pool = s.pool.start src tgt := by
  refine Pool.ext (funext fun x => ?_) rfl rfl rfl rfl rfl rfl rfl
  show ((s.startRelocation src tgt).entry x).st = _
  rw [State.entry_startRelocation]
  dsimp only [Pool.start]
  split
  · rfl
  · split
    · exact Entry.toMoving_st _
    · rfl

theorem Rle.live_of_rest {r : Rle} (h : r = .idle ∨ r = .waiting) : r.live = none := by
  rcases h with rfl | rfl <;> rfl

theorem State.carries_startRelocation {src tgt : Extent} {rest free : List Extent}
    (hrle : s.rle = .idle ∨ s.rle = .waiting) (hr : s.relocList = src :: rest) (hf : s.freeList = tgt :: free) :
    s.Carries (s.startRelocation src tgt) :=
  .of_pool rfl rfl rfl rfl fun h => s.pool_startRelocation src tgt ▸ h.start hr hf (Rle.live_of_rest hrle)

theorem State.carries_rleSettle (s : State) : s.Carries s.rleSettle := by
  rcases s.rleSettle_cases with h' | ⟨hr, _, h'⟩ | ⟨hr, _, _, h'⟩ | ⟨src, rest, tgt, free, hr, hl, hf, h'⟩ <;> rw [h']
  · exact .refl s
  · exact .of_outline (s.outline_setRle (Rle.live_of_rest hr).symm)
  · exact .of_outline (s.outline_setRle (Rle.live_of_rest hr).symm)
  · exact State.carries_startRelocation hr hl hf

/-- What follows a take at once (log 2). -/
theorem State.carries_settle (s : State) : s.Carries s.settle :=
  (s.carries_rleSettle.trans s.rleSettle.carries_wpeTake).quiet (State.outline_grantMemory _)

theorem State.Carries.settle {t : State} (h : s.Carries t) : s.Carries t.settle := h.trans t.carries_settle

theorem State.carries_afterVerify {e : Extent} (hc : s.wpe.current = some e) (b : Nat) (failed : Bool) :
    s.Carries (s.afterVerify e b failed) := by
  unfold State.afterVerify
  split
  · exact .of_outline (s.outline_setWpe (by rw [hc]; rfl))
  have hpool : (s.wipeEnd e failed).pool = s.pool.wiped e failed := by
    cases failed
    · exact Pool.ext (funext fun x => State.st_updExtent e x .free _ fun _ => rfl) rfl rfl rfl rfl rfl rfl rfl
    · exact Pool.ext (funext fun x => State.st_updExtent e x (.quarantined .verify) _ fun _ => rfl)
        rfl rfl rfl rfl rfl rfl rfl
  have hrest : (s.wipeEnd e failed).resetn = s.resetn ∧ (s.wipeEnd e failed).straps = s.straps ∧
      (s.wipeEnd e failed).windows = s.windows ∧ (s.wipeEnd e failed).clearRec = s.clearRec := by
    cases failed <;> exact ⟨rfl, rfl, rfl, rfl⟩
  obtain ⟨h1, h2, h3, h4⟩ := hrest
  exact .of_pool h1 h2 h3 (by rw [h4]) fun h => hpool ▸ h.wiped hc failed

end Engines

section Lists

variable {s : State}

theorem State.carries_quarantineExtent {e : Extent} (he : (s.entry e).st = .free ∨ (s.entry e).st = .dirty) :
    s.Carries (s.quarantineExtent e) := by
  have hpool : (s.quarantineExtent e).pool = s.pool.quarantine e :=
    Pool.ext (funext fun x => State.st_updExtent e x (.quarantined .supervisor) _ fun _ => rfl)
      rfl rfl rfl rfl rfl rfl rfl
  exact .of_pool rfl rfl rfl rfl fun h => hpool ▸ h.quarantine he

theorem State.carries_restore {e : Extent} (he : (s.entry e).st.isQuarantined = true) :
    s.Carries (s.makeDirty [e]) := by
  have hpool : (s.makeDirty [e]).pool = s.pool.restore e := by
    refine Pool.ext (funext fun x => ?_) rfl rfl rfl rfl rfl rfl rfl
    show ((s.makeDirty [e]).entry x).st = _
    rw [State.entry_makeDirty]
    by_cases hx : x = e <;> simp [Pool.restore, State.pool, hx]
  exact .of_pool rfl rfl rfl rfl fun h => hpool ▸ h.restore he

theorem State.carries_listForRelocation {e : Extent} (hb : (s.entry e).st.isBound = true) (hn : e ∉ s.relocList) :
    s.Carries (s.listForRelocation e) := by
  have hpool : (s.listForRelocation e).pool = s.pool.list [e] := rfl
  refine .of_pool rfl rfl rfl rfl fun h => hpool ▸ h.list (List.nodup_singleton e) fun x hx => ?_
  rw [List.mem_singleton.1 hx]
  exact ⟨hb, hn⟩

theorem State.mem_reaching {n : Nat} {e : Extent} (h : e ∈ s.reaching n) :
    (s.entry e).st.isBound = true ∧ e ∉ s.relocList := by
  have := (Tab.mem_indices _ _ _).1 h
  simp only [Bool.and_eq_true, decide_eq_true_eq] at this
  exact ⟨this.1.1, this.2⟩

theorem State.carries_newThreshold (s : State) (n : Nat) : s.Carries (s.newThreshold n) := by
  have hst : ∀ x, ((s.lowerCounts n).entry x).st = (s.entry x).st := fun x => by
    unfold State.lowerCounts
    rw [State.entry_mapExtents]
  have hpool : (s.newThreshold n).pool = s.pool.list ((s.lowerCounts n).reaching n) :=
    Pool.ext (funext hst) rfl rfl rfl rfl rfl rfl rfl
  refine .of_pool rfl rfl rfl rfl fun h => hpool ▸ h.list (Tab.indices_nodup _ _) fun x hx => ?_
  have := State.mem_reaching hx
  rw [hst] at this
  exact this

theorem State.carries_countCorrection (s : State) (e : Extent) : s.Carries (s.countCorrection e) := by
  have h1 : (s.updExtent e fun y => { y with count := y.count + 1 }).outline = s.outline :=
    s.outline_updExtent e _ fun _ => rfl
  unfold State.countCorrection
  dsimp only
  split
  · next hc =>
    split
    · next hl =>
      refine (State.Carries.of_outline h1).trans (State.carries_listForRelocation ?_ hl.2)
      rw [State.entry_updExtent_self]
      exact hc.1
    · exact .of_outline h1
  · exact .refl s

theorem State.carries_report (s : State) (e : Extent) (o : Option WordRead) : s.Carries (s.report e o) := by
  unfold State.report
  split
  · exact s.carries_countCorrection e
  · split
    · next hc => exact State.carries_listForRelocation hc.1 hc.2
    · exact .refl s
  all_goals exact .refl s

end Lists

end Sys2Proof.Machine
end

section
/-!
Commands on grants (OFFER to RELEASE, the ageing of offers, R99 to R109), OPEN and GROW carry the invariants.
-/

namespace Sys2Proof.Machine

section WindowTables

variable {s : State}

theorem State.heldBy_updWindow (s : State) (w : WSlot) {f : Window → Window}
    (hg : (f (s.window w)).gen = (s.window w).gen) (h : Handle) :
    (s.updWindow w f).heldBy h = if h = s.handleOf w then (f (s.window w)).extents else s.heldBy h := by
  have hhandle : ∀ v, (s.updWindow w f).handleOf v = s.handleOf v := fun v => by
    unfold State.handleOf
    rw [State.window_updWindow]
    split
    · next hv => rw [hv, hg]
    · rfl
  unfold State.heldBy
  rw [hhandle]
  by_cases hh : h = s.handleOf w
  · subst hh
    simp [State.handleOf]
  · rw [if_neg hh]
    split
    · next hs =>
      have hw : h.slot ≠ w := fun he => hh (by rw [hs, he])
      rw [State.window_updWindow_of_ne s hw]
    · rfl

theorem State.heldBy_handleOf (s : State) (w : WSlot) : s.heldBy (s.handleOf w) = (s.window w).extents := if_pos rfl

theorem State.waitingIn_updWindow (s : State) (w : WSlot) (f : Window → Window) (o : Option WSlot) :
    (s.updWindow w f).waitingIn o = if o = some w then (f (s.window w)).retiring else s.waitingIn o := by
  cases o with
  | none => rfl
  | some v =>
    show ((s.updWindow w f).window v).retiring = _
    rw [State.window_updWindow]
    by_cases hv : v = w
    · subst hv; simp
    · simp [hv, State.waitingIn]

/-- Handles name the same extents where windows keep them, and their generation while they have some. -/
theorem State.heldBy_congr {t : State}
    (h : ∀ w, (t.window w).extents = (s.window w).extents ∧
      ((s.window w).extents ≠ [] → (t.window w).gen = (s.window w).gen)) (g : Handle) : t.heldBy g = s.heldBy g := by
  obtain ⟨he, hg⟩ := h g.slot
  unfold State.heldBy
  rw [he]
  by_cases hne : (s.window g.slot).extents = []
  · simp [hne]
  · unfold State.handleOf
    rw [hg hne]

/-- The pool does not change where windows keep their extents, waiting or not, and their generation while they have
some. -/
theorem State.pool_setWindows {ws : Vector Window 128}
    (h : ∀ w, (Tab.get ws w).extents = (s.window w).extents ∧ (Tab.get ws w).retiring = (s.window w).retiring ∧
      ((s.window w).extents ≠ [] → (Tab.get ws w).gen = (s.window w).gen)) :
    State.pool { s with windows := ws } = s.pool := by
  have hheld := State.heldBy_congr (t := { s with windows := ws }) fun w => ⟨(h w).1, (h w).2.2⟩
  refine Pool.ext rfl (funext hheld) (funext fun o => ?_) rfl rfl rfl rfl rfl
  cases o with
  | none => rfl
  | some w => exact (h w).2.1

/-- The pool after one window's record has changed. -/
theorem State.pool_updWindow {w : WSlot} {f : Window → Window} (hg : (f (s.window w)).gen = (s.window w).gen) :
    (s.updWindow w f).pool = { s.pool with
      held := fun g => if g = s.handleOf w then (f (s.window w)).extents else s.pool.held g
      waiting := fun o => if o = some w then (f (s.window w)).retiring else s.pool.waiting o } :=
  Pool.ext rfl (funext (s.heldBy_updWindow w hg)) (funext (s.waitingIn_updWindow w f)) rfl rfl rfl rfl rfl

end WindowTables

section Regrants

variable {s : State} {x x' : Window}

theorem Window.Regrants.keeps_extents (h : x.Regrants x') (hx : x.Wf) :
    x'.extents = x.extents ∧ x'.retiring = x.retiring ∧ (x.extents ≠ [] → x'.gen = x.gen) := by
  cases h with
  | trimmed h =>
    rw [h.rest]
    exact ⟨rfl, rfl, fun _ => rfl⟩
  | vanished hr =>
    have he : x.extents = [] := (hx.body.closed (by simp [hr])).1
    exact ⟨he.symm, (hx.drain_iff.1 (hx.body.rests hr).1).symm, fun hne => absurd he hne⟩

/-- Window records that only lose grants (R98, R103 to R109). -/
theorem State.carries_regrant {ws : Vector Window 128}
    (hw : s.WindowsWf → ∀ w, (s.window w).Regrants (Tab.get ws w)) : s.Carries { s with windows := ws } := by
  refine ⟨rfl, fun h => h.regrant rfl (hw h), fun h hv => hv.narrow rfl fun w => (hw h w).narrows, fun h hp => ?_⟩
  rw [State.pool_setWindows fun w => (hw h w).keeps_extents (h.1 w)]
  exact hp

theorem State.carries_updWindow_regrant {w : WSlot} {f : Window → Window}
    (hw : (s.window w).Wf → (s.window w).Regrants (f (s.window w))) : s.Carries (s.updWindow w f) := by
  refine State.carries_regrant fun h v => ?_
  rw [Tab.get_upd]
  split
  · next hv => exact hv ▸ hw (h.1 w)
  · exact .refl _ (h.1 v)

/-- A trimmed grant slot of a window that is not RETIRING, not the owner's of an OPEN one. -/
theorem Window.Trims.setGrant {k : GSlot} {g : Grant} (hg : (x.grant k).Trims g) (hk : x.state = .opened → k ≠ 0)
    (hr : x.state ≠ .retiring) : x.Trims (x.setGrant k g) := by
  refine ⟨rfl, fun j => ?_, fun ho => ?_, fun h => absurd h hr⟩
  · rw [Window.grant_setGrant]
    split
    · next hj => exact hj ▸ hg
    · exact .same _
  · rw [Window.grant_setGrant, if_neg (hk ho).symm]

/-- An offer stands in an OPEN window, not in the owner's slot (R4, R99). -/
theorem Window.Wf.of_offered (h : x.Wf) {k : GSlot} (hk : (x.grant k).isOffered = true) :
    x.state = .opened ∧ k ≠ 0 := by
  refine ⟨?_, ?_⟩
  · by_contra hs
    rw [((h.body.closed hs).2 k).2] at hk
    cases hk
  · rintro rfl
    rw [h.body.first] at hk
    cases hk

/-- A WITHDRAW, a DECLINE or an expiry vacates the slot of an offer (R103, R105, R106). -/
theorem State.carries_dropOffer {w : WSlot} {k : GSlot} (hk : ((s.window w).grant k).isOffered = true) :
    s.Carries (s.setGrant w k .vacant) :=
  State.carries_updWindow_regrant fun h => by
    obtain ⟨hs, hne⟩ := h.of_offered hk
    exact .trimmed (.setGrant (.vacated _) (fun _ => hne) (by simp [hs]))

theorem State.carries_revoke {w : WSlot} {k : GSlot} {a : Port} (ho : (s.window w).owner ≠ some a)
    (ha : ((s.window w).grant k).agent = some a) (hk : ((s.window w).grant k).isActive = true) :
    s.Carries (s.setGrant w k ((s.window w).grant k).revoke) :=
  State.carries_updWindow_regrant fun h => by
    have hs := h.opened_of_active hk
    refine .trimmed (.setGrant ?_ (fun _ => ?_) (by simp [hs]))
    · cases hg : (s.window w).grant k with
      | active a r b => exact .revoked a r b
      | vacant | offered | revoked => rw [hg] at hk; cases hk
    · rintro rfl
      obtain ⟨o, b, howner, hg⟩ := h.body.ownerView hs
      rw [hg] at ha
      exact ho (howner.trans ha)

theorem Window.regrants_released {k : GSlot} (hk : k = 0 → x.state ≠ .opened) : x.Regrants (x.released k) := by
  unfold Window.released
  have htrims : ∀ j, (x.grant j).Trims ((x.setGrant k .vacant).grant j) := fun j => by
    rw [Window.grant_setGrant]
    split
    · exact .vacated _
    · exact .same _
  have hopen : x.state = .opened → (x.setGrant k .vacant).grant 0 = x.grant 0 := fun ho => by
    rw [Window.grant_setGrant, if_neg]
    rintro rfl
    exact hk rfl ho
  dsimp only
  split
  · next hr =>
    split
    · next hv => exact .trimmed ⟨rfl, htrims, hopen, fun _ => hv⟩
    · exact .vanished hr
  all_goals
    next hs => exact .trimmed ⟨rfl, htrims, hopen, fun hr => by rw [hs] at hr; cases hr⟩

theorem Grant.trims_expire_age (g : Grant) : g.Trims g.age.expire := by
  have hexp : ∀ (a : Port) (r : Rights) (l l' : Option Nat),
      (Grant.offered a r l).Trims (Grant.offered a r l').expire := by
    intro a r l l'
    unfold Grant.expire
    split
    · exact .vacated _
    · exact .aged a r l l'
  cases g with
  | offered a r l => cases l <;> exact hexp _ _ _ _
  | vacant | active | revoked => exact .same _

theorem Window.regrants_tick (hx : x.Wf) : x.Regrants x.tick := by
  unfold Window.tick
  split
  · next ho =>
    refine .trimmed ⟨rfl, fun k => ?_, fun _ => ?_, fun hr => ?_⟩
    · rw [Window.grant_mapAll]
      exact Grant.trims_expire_age _
    · obtain ⟨o, b, -, hg⟩ := hx.body.ownerView ho
      rw [Window.grant_mapAll, hg]
      rfl
    · rw [ho] at hr
      cases hr
  · exact .refl x hx

/-- An agent's views and offers go from every window but an OPEN one of its own (R165). -/
theorem Window.regrants_withoutAgent (hx : x.Wf) {p : Port} (hp : x.state = .opened → x.owner ≠ some p) :
    x.Regrants (x.withoutAgent p) := by
  unfold Window.withoutAgent
  dsimp only
  have htrims : ∀ j, (x.grant j).Trims (Window.grant
      { x with grants := Tab.mapAll x.grants fun _ g => if g.isOf p then .vacant else g } j) := fun j => by
    rw [Window.grant_mapAll]
    split
    · exact .vacated _
    · exact .same _
  have hopen : x.state = .opened → Window.grant
      { x with grants := Tab.mapAll x.grants fun _ g => if g.isOf p then .vacant else g } 0 = x.grant 0 := fun ho => by
    obtain ⟨o, b, howner, hg⟩ := hx.body.ownerView ho
    rw [Window.grant_mapAll, hg, if_neg]
    simp only [Grant.isOf, Grant.agent, decide_eq_true_eq, ← howner]
    exact hp ho
  split
  · next hr =>
    split
    · next hv => exact .trimmed ⟨rfl, htrims, hopen, fun _ => hv⟩
    · exact .vanished hr
  all_goals
    next hs => exact .trimmed ⟨rfl, htrims, hopen, fun hr => by rw [hs] at hr; cases hr⟩

end Regrants

section NewGrants

variable {s : State} {x : Window}

/-- A grant slot of an OPEN window given to an agent that is not the owner and has no other slot there (R99). -/
theorem Window.Wf.setGrant (h : x.Wf) (hs : x.state = .opened) {k : GSlot} {g : Grant} (hk : k ≠ 0)
    (hg : ∀ a, g.agent = some a → x.owner ≠ some a ∧ ∀ j, j ≠ k → (x.grant j).agent ≠ some a) :
    (x.setGrant k g).Wf := by
  have hb := h.body
  have hst : ∀ {st}, x.state = st → st = .opened := fun h => h.symm.trans hs
  have hzero : (x.setGrant k g).grant 0 = x.grant 0 := by rw [Window.grant_setGrant, if_neg hk.symm]
  refine (Window.wf_iff _).2 ⟨⟨fun hv => ?_, hb.size, fun ho => ?_, fun hne => absurd hs hne, hb.owned, fun hr => ?_,
    ?_, fun j hj ha => ?_, fun i j a hi hj => ?_⟩, h.drain_iff⟩
  · cases hst hv
  · rw [hzero]
    exact hb.ownerView ho
  · cases hst hr
  · rw [hzero]
    exact hb.first
  · rw [Window.grant_setGrant] at ha ⊢
    split
    · next he =>
      rw [if_pos he] at ha
      obtain ⟨a, hga⟩ := Option.ne_none_iff_exists'.1 ha
      rw [hga]
      exact (hg a hga).1.symm
    · next he =>
      rw [if_neg he] at ha
      exact hb.grantees j hj ha
  · simp only [Window.grant_setGrant, Grant.isOf, decide_eq_true_eq] at hi hj
    split at hi <;> split at hj
    · next h1 h2 => rw [h1, h2]
    · next h1 h2 => exact absurd hj ((hg a hi).2 j h2)
    · next h1 h2 => exact absurd hi ((hg a hj).2 i h1)
    · exact hb.single i j a (by simpa [Grant.isOf] using hi) (by simpa [Grant.isOf] using hj)

/-- One OPEN window's record is replaced by an OPEN one. -/
theorem State.WindowsWf.updOpen (h : s.WindowsWf) {w : WSlot} {f : Window → Window}
    (hs : (s.window w).state = .opened ∨ (s.window w).state = .vacant) (hf : (f (s.window w)).Wf)
    (ho : (f (s.window w)).state = .opened) : (s.updWindow w f).WindowsWf := by
  refine h.replace rfl fun v => ?_
  rw [State.window_updWindow]
  split
  · next hv =>
    subst hv
    refine Or.inr ⟨h.not_underClear (Or.inl ?_), hf, fun hd => ?_⟩
    · rcases hs with hs | hs <;> simp [hs]
    · rw [ho] at hd
      cases hd
  · exact Or.inl rfl

theorem State.pool_setGrant (s : State) (w : WSlot) (k : GSlot) (g : Grant) : (s.setGrant w k g).pool = s.pool := by
  refine State.pool_setWindows fun v => ?_
  rw [Tab.get_upd]
  split <;> exact ⟨rfl, rfl, fun _ => rfl⟩

theorem State.grantAt_setGrant (s : State) (w : WSlot) (k : GSlot) (g : Grant) (y : WSlot × GSlot) :
    (s.setGrant w k g).grantAt y = if y = (w, k) then g else s.grantAt y := by
  obtain ⟨v, j⟩ := y
  unfold State.grantAt State.setGrant
  rw [State.window_updWindow]
  by_cases hv : v = w
  · subst hv
    simp
  · simp [hv]

theorem State.viewLen_setGrant (s : State) (w v : WSlot) (k : GSlot) (g : Grant) :
    ((s.setGrant w k g).window v).viewLen = (s.window v).viewLen := by
  unfold State.setGrant
  rw [State.window_updWindow]
  split <;> rfl

/-- A new offer (R100). -/
theorem State.carries_offer {w : WSlot} {k : GSlot} {a : Port} {r : Rights} {l : Option Nat}
    (hs : (s.window w).state = .opened) (ho : (s.window w).owner ≠ some a)
    (ha : ∀ j, ((s.window w).grant j).agent ≠ some a) (hk : k ≠ 0) : s.Carries (s.setGrant w k (.offered a r l)) := by
  refine ⟨rfl, fun h => h.updOpen (Or.inl hs) ((h.1 w).setGrant hs hk fun b hb => ?_) hs,
    fun _ h => h.narrow rfl fun v j b hb => ?_, fun _ h => s.pool_setGrant w k _ ▸ h⟩
  · cases hb
    exact ⟨ho, fun j _ => ha j⟩
  · have hgrant := s.grantAt_setGrant w k (.offered a r l) (v, j)
    refine ⟨?_, (s.viewLen_setGrant w v k _).le⟩
    unfold State.grantAt at hgrant
    rw [hgrant] at hb
    split at hb
    · cases hb
    · exact hb

/-- An ACCEPT adds a view in free view space (R101, R102). -/
theorem State.carries_accept {w : WSlot} {k : GSlot} {p : Port} {r : Rights} {l : Option Nat} {base : Nat}
    (hg : (s.window w).grant k = .offered p r l) (hbase : s.baseOk base = true) (hheld : s.viewsHeld p < 16)
    (hfits : s.fits base (s.window w).extents.length = true)
    (hmeets : ∀ v ∈ s.viewsOf p, s.meets base (s.window w).extents.length v = false) :
    s.Carries (s.setGrant w k (.active p r base)) := by
  have hoff : ((s.window w).grant k).isOffered = true := by rw [hg]; rfl
  refine ⟨rfl, fun h => ?_, fun h hv => ?_, fun _ h => s.pool_setGrant w k _ ▸ h⟩
  · obtain ⟨hs, hk⟩ := (h.1 w).of_offered hoff
    have hagent : ((s.window w).grant k).agent = some p := by rw [hg]; rfl
    refine h.updOpen (Or.inl hs) ((h.1 w).setGrant hs hk fun b hb => ?_) hs
    cases hb
    refine ⟨fun ho => (h.1 w).body.grantees k hk (by simp [hagent]) (hagent.trans ho.symm), fun j hj hja => hj ?_⟩
    exact (h.1 w).body.single j k p (by simpa [Grant.isOf] using hja) (by simpa [Grant.isOf] using hagent)
  · obtain ⟨hs, hk⟩ := (h.1 w).of_offered hoff
    refine hv.add (x₀ := (w, k)) rfl (fun y v hy hv => ?_) ?_ ?_ hbase hfits hheld hmeets
    · rw [State.grantAt_setGrant, if_neg hy] at hv
      exact ⟨hv, s.viewLen_setGrant w y.1 k _⟩
    · rw [State.grantAt_setGrant, if_pos rfl]
      rfl
    · rw [State.viewLen_setGrant]
      simp [Window.viewLen, hs]

end NewGrants

section Growth

variable {s : State} {x : Window}

theorem Window.grant_opened (p : Port) (l : List Extent) (base : Nat) (k : GSlot) :
    (x.opened p l base).grant k = if k = 0 then .active p .readWrite base else .vacant := by
  show Tab.get (Tab.upd (Vector.replicate 6 Grant.vacant) 0 fun _ => _) k = _
  rw [Tab.get_upd, Tab.get_replicate]

/-- The record of a new window is well formed (R79). -/
theorem Window.wf_opened (p : Port) {l : List Extent} (base : Nat) (h1 : 1 ≤ l.length) (h128 : l.length ≤ 128) :
    (x.opened p l base).Wf := by
  have hg := x.grant_opened p l base
  have hof : ∀ k a, ((x.opened p l base).grant k).isOf a = true → k = 0 := by
    intro k a hk
    by_contra hne
    simp [hg, hne, Grant.isOf, Grant.agent] at hk
  refine (Window.wf_iff _).2 ⟨⟨nofun, fun _ => ⟨h1, h128⟩, fun _ => ⟨p, base, rfl, ?_⟩, fun hne => absurd rfl hne,
    fun _ => nofun, nofun, ?_, fun k hk ha => ?_, fun j k a hj hk => ?_⟩, ⟨fun _ => rfl, fun _ => rfl⟩⟩
  · simp [hg]
  · simp [hg, Grant.isOffered]
  · simp [hg, hk, Grant.agent] at ha
  · rw [hof j a hj, hof k a hk]

/-- An OPEN window with another extent list of a length that R2 allows. -/
theorem Window.Wf.setExtents (h : x.Wf) (hs : x.state = .opened) {l : List Extent} (h1 : 1 ≤ l.length)
    (h128 : l.length ≤ 128) : Window.Wf { x with extents := l } := by
  have hb := h.body
  have hst : ∀ {st}, x.state = st → st = .opened := fun h => h.symm.trans hs
  refine (Window.wf_iff _).2 ⟨⟨fun hv => ?_, fun _ => ⟨h1, h128⟩, hb.ownerView, fun hne => absurd hs hne, hb.owned,
    fun hr => ?_, hb.first, hb.grantees, hb.single⟩, h.drain_iff⟩
  · cases hst hv
  · cases hst hr

/-- Extents from the Free List head bound to a window whose record takes them at its highest ordinals (R28). -/
theorem State.pool_bind {w : WSlot} {n first : Nat} {f : Window → Window}
    (hg : (f (s.window w)).gen = (s.window w).gen) (hr : (f (s.window w)).retiring = (s.window w).retiring)
    (he : (f (s.window w)).extents = (s.window w).extents ++ s.freeList.take n)
    (hfirst : first = (s.window w).extents.length) :
    (State.updWindow { s.bindExtents (s.handleOf w) first (s.freeList.take n) with freeList := s.freeList.drop n }
      w f).pool = s.pool.bind (s.handleOf w) n := by
  subst hfirst
  have hheld := s.heldBy_handleOf w
  refine Pool.ext (funext fun e => ?_) (funext fun g => ?_) (funext fun o => ?_) rfl rfl rfl rfl rfl
  · show ((s.bindExtents (s.handleOf w) _ (s.freeList.take n)).entry e).st = _
    unfold State.bindExtents
    rw [State.entry_mapExtents]
    simp only [Pool.bind, State.pool, hheld]
    split <;> rfl
  · refine (State.heldBy_updWindow _ w hg g).trans ?_
    simp only [Pool.bind, State.pool, hheld]
    rw [← he]
  · refine (State.waitingIn_updWindow _ w f o).trans ?_
    split
    · next ho => rw [ho]; exact hr
    · rfl

theorem State.carries_openAt {p : Port} {w : WSlot} {n base : Nat} (hvac : (s.window w).state = .vacant) (h1 : 1 ≤ n)
    (h128 : n ≤ 128) (hbase : s.baseOk base = true) (hfits : s.fits base n = true) (hheld : s.viewsHeld p < 16)
    (hmeets : ∀ v ∈ s.viewsOf p, s.meets base n v = false) (hn : n ≤ s.freeList.length) :
    s.Carries (s.openAt p w n base) := by
  have hlen : (s.freeList.take n).length = n := List.length_take_of_le hn
  have hwindow : ∀ v, (s.openAt p w n base).window v =
      if v = w then (s.window w).opened p (s.freeList.take n) base else s.window v := fun v => by
    refine (State.window_updWindow _ w v _).trans ?_
    split
    · next hv => rw [hv]; rfl
    · rfl
  refine ⟨rfl, fun h => h.replace rfl fun v => ?_, fun _ hv => ?_, fun h hp => ?_⟩
  · rw [hwindow]
    split
    · next hv =>
      exact Or.inr ⟨h.not_underClear (Or.inl (by simp [hv, hvac])),
        Window.wf_opened p base (by omega) (by omega), nofun⟩
    · exact Or.inl rfl
  · have hgrant : ∀ y, (s.openAt p w n base).grantAt y =
        if y.1 = w then (if y.2 = 0 then .active p .readWrite base else .vacant) else s.grantAt y := fun y => by
      unfold State.grantAt
      rw [hwindow]
      split
      · exact Window.grant_opened _ _ _ _
      · rfl
    refine hv.add (x₀ := (w, 0)) rfl (fun y v hy hv => ?_) ?_ ?_ hbase hfits hheld hmeets
    · rw [hgrant] at hv
      split at hv
      · next hw =>
        rw [if_neg fun h0 => hy (Prod.ext hw h0)] at hv
        cases hv
      · next hw => exact ⟨hv, by rw [hwindow, if_neg hw]⟩
    · rw [hgrant, if_pos rfl, if_pos rfl]
      rfl
    · rw [hwindow, if_pos rfl]
      exact hlen
  · have hx := (h.1 w).body.vacant hvac
    have he : (s.window w).extents = [] := by rw [hx]; rfl
    have hr : (s.window w).retiring = [] := by rw [hx]; rfl
    have hpool : (s.openAt p w n base).pool = s.pool.bind (s.handleOf w) n :=
      State.pool_bind rfl hr.symm (by rw [he]; rfl) (by rw [he]; rfl)
    rw [hpool]
    exact hp.bind _ n

theorem State.carries_growBy {w : WSlot} {n : Nat} (hs : (s.window w).state = .opened)
    (h128 : (s.window w).extents.length + n ≤ 128) (hfits : s.growFits w ((s.window w).extents.length + n) = true)
    (hclear : s.growClear w ((s.window w).extents.length + n) = true) (hn : n ≤ s.freeList.length) :
    s.Carries (s.growBy w n) := by
  have hlen : (s.freeList.take n).length = n := List.length_take_of_le hn
  have hwindow : ∀ v, (s.growBy w n).window v =
      if v = w then { s.window w with extents := (s.window w).extents ++ s.freeList.take n } else s.window v :=
    fun v => by
      refine (State.window_updWindow _ w v _).trans ?_
      split
      · next hv => rw [hv]; rfl
      · rfl
  refine ⟨rfl, fun h => h.replace rfl fun v => ?_, fun h hv => ?_, fun _ hp => ?_⟩
  · rw [hwindow]
    split
    · next hv =>
      refine Or.inr ⟨h.not_underClear (Or.inl (by simp [hv, hs])), (h.1 w).setExtents hs ?_ ?_, fun hd => ?_⟩
      · have := ((h.1 w).body.size hs).1
        rw [List.length_append]
        omega
      · rw [List.length_append, hlen]
        exact h128
      · have : (s.window w).state = .draining := hd
        rw [hs] at this
        cases this
    · exact Or.inl rfl
  · refine hv.lengthen (w := w) rfl (fun y => ?_) ?_ (fun v hv => ?_) (h.1 w).body.single hfits hclear
    · unfold State.grantAt
      rw [hwindow]
      split
      · next hy => rw [hy]; rfl
      · rfl
    · rw [hwindow, if_pos rfl]
      simp [Window.viewLen, hs, hlen]
    · rw [hwindow, if_neg hv]
  · have hpool : (s.growBy w n).pool = s.pool.bind (s.handleOf w) n := State.pool_bind rfl rfl rfl rfl
    rw [hpool]
    exact hp.bind _ n

end Growth

end Sys2Proof.Machine
end

section
/-!
The end of drains, and what leaves a drain set (R22, R93, R94, R171, R173).
-/

namespace Sys2Proof.Machine

section DrainEnds

variable {s : State} {x : Window}

theorem Window.afterDrain_extents (hd : x.state = .draining → x.extents = []) :
    x.afterDrain.extents = x.extents ∧ (x.extents ≠ [] → x.afterDrain.gen = x.gen) := by
  unfold Window.afterDrain
  split
  · next hs =>
    split
    · exact ⟨rfl, fun _ => rfl⟩
    · exact ⟨(hd hs).symm, fun hne => absurd (hd hs) hne⟩
  all_goals exact ⟨rfl, fun _ => rfl⟩

theorem State.live_restIf (s : State) (o : DrainOwner) : (s.restIf o).rle.live = s.rle.live := by
  unfold State.restIf
  split
  · next hr =>
    split
    · rw [hr]; rfl
    · rfl
  all_goals rfl

/-- What the end of a window's drain does to the pool (R94). -/
theorem State.pool_endDrain {w : WSlot} (hd : (s.window w).state = .draining → (s.window w).extents = []) :
    (s.endDrain w).pool = s.pool.drained (some w) := by
  refine Pool.ext (funext fun e => ?_) (funext fun g => ?_) (funext fun o => ?_) ?_ ?_ ?_ ?_ ?_
  · show ((s.endDrain w).entry e).st = if e ∈ (s.window w).retiring then .dirty else (s.entry e).st
    rw [State.entry_endDrain]
    split <;> rfl
  · refine State.heldBy_congr (fun v => ?_) g
    rw [State.window_endDrain]
    split
    · next hv => exact hv ▸ Window.afterDrain_extents hd
    · exact ⟨rfl, fun _ => rfl⟩
  · dsimp only [Pool.drained]
    cases o with
    | none => exact State.clearRetiring_congr (by simp)
    | some v =>
      show ((s.endDrain w).window v).retiring = _
      rw [State.window_endDrain]
      by_cases hv : v = w
      · simp [hv, Window.afterDrain_retiring]
      · simp [hv, State.pool, State.waitingIn]
  · exact s.endDrain_freeList w
  · exact s.wipeList_endDrain w
  · exact s.endDrain_relocList w
  · show (s.endDrain w).wpe.current = _
    rw [State.endDrain_wpe]
    rfl
  · show (s.endDrain w).rle.live = _
    rw [State.rle_endDrain]
    exact s.live_restIf _

theorem State.coherent_endDrainIfEmpty {w : WSlot} (h : s.pool.Coherent)
    (hd : (s.window w).state = .draining → (s.window w).extents = []) : (s.endDrainIfEmpty w).pool.Coherent := by
  unfold State.endDrainIfEmpty
  split
  · rw [State.pool_endDrain hd]
    exact h.drained _
  · exact h

/-- A member leaves the drain set of a window (R93). -/
theorem State.carries_leaveWindow (s : State) (w : WSlot) (m : Member) : s.Carries (s.leaveWindow w m) := by
  by_cases hm : (s.window w).drain.has m = true
  case neg =>
    rw [s.leaveWindow_absent (by simpa using hm)]
    exact .refl s
  have hwindow : ∀ v, (s.leaveWindow w m).window v =
      if v = w then ((s.window w).without m).endIfEmpty else s.window v := by
    intro v
    rw [State.leaveWindow_eq hm, State.window_endDrainIfEmpty, State.window_updWindow]
    by_cases hv : v = w
    · simp [hv]
    · simp [hv]
  refine ⟨by simp, fun h => h.replace (by simp) fun v => ?_, fun h hv => hv.narrow (by simp) fun v => ?_,
    fun h hp => ?_⟩
  · rw [hwindow]
    split
    · next hv =>
      subst hv
      exact Or.inr ⟨h.not_underClear (Or.inr (DrainSet.ne_empty_of_has hm)), (h.1 v).without hm⟩
    · exact Or.inl rfl
  · rw [hwindow]
    split
    · next hv => exact hv ▸ Window.Narrows.trans (y := (s.window v).without m) (.refl _) (Window.narrows_endIfEmpty _)
    · exact .refl _
  · rw [State.leaveWindow_eq hm]
    refine State.coherent_endDrainIfEmpty ?_ fun hd => ?_
    · have hpool : (s.updWindow w fun x => x.without m).pool = s.pool := State.pool_setWindows fun v => by
        rw [Tab.get_upd]
        split <;> exact ⟨rfl, rfl, fun _ => rfl⟩
      exact hpool ▸ hp
    · rw [State.window_updWindow_self] at hd ⊢
      have hs : (s.window w).state = .draining := hd
      exact ((h.1 w).body.closed (by simp [hs])).1

end DrainEnds

section ClearDrain

variable {s : State} {c : ClearRecord}

theorem State.viewsOk_endClearDrain (hc : s.clearRec = some c) (h : s.ViewsOk) : s.endClearDrain.ViewsOk := by
  obtain ⟨-, hwin, -⟩ := s.endClearDrain_eq hc
  refine h.narrow (by simp) fun w => ?_
  rw [hwin]
  split
  · exact Window.narrows_vacantAt _ _
  · exact .refl _

/-- The end of CLEAR's drain gives the pool its extents back (R173). -/
theorem State.coherent_endClearDrain (hc : s.clearRec = some c) (h : s.pool.Coherent)
    (hw : ∀ w ∈ c.closed, (s.window w).extents = [] ∧ (s.window w).retiring = []) :
    s.endClearDrain.pool.Coherent := by
  obtain ⟨hnone, hwin, hentry, hwipe, hrle, -⟩ := s.endClearDrain_eq hc
  have hwaiting : s.pool.waiting none = c.retiring := by
    show s.clearRetiring = _
    unfold State.clearRetiring
    rw [hc]
  have hpool : s.endClearDrain.pool = s.pool.drained none := by
    refine Pool.ext (funext fun e => ?_) (funext fun g => ?_) (funext fun o => ?_) ?_ ?_ ?_ ?_ ?_
    · show (s.endClearDrain.entry e).st = _
      rw [hentry]
      simp only [Pool.drained, hwaiting]
      split <;> rfl
    · refine State.heldBy_congr (fun v => ?_) g
      rw [hwin]
      split
      · next hv => exact ⟨(hw v hv).1.symm, fun hne => absurd (hw v hv).1 hne⟩
      · exact ⟨rfl, fun _ => rfl⟩
    · cases o with
      | none =>
        show s.endClearDrain.clearRetiring = []
        unfold State.clearRetiring
        rw [hnone]
      | some v =>
        show (s.endClearDrain.window v).retiring = (s.window v).retiring
        rw [hwin]
        split
        · next hv => exact (hw v hv).2.symm
        · rfl
    · exact s.endClearDrain_freeList
    · simp only [Pool.drained, hwaiting]
      exact hwipe
    · exact s.endClearDrain_relocList
    · show s.endClearDrain.wpe.current = _
      rw [State.endClearDrain_wpe]
      rfl
    · show s.endClearDrain.rle.live = _
      rw [hrle]
      exact s.live_restIf _
  rw [hpool]
  exact h.drained _

/-- A window under CLEAR has no extent, waiting or not (R171, R172). -/
theorem State.WindowsWf.cleared_empty (h : s.WindowsWf) {w : WSlot} (hu : s.underClear w = true) :
    (s.window w).extents = [] ∧ (s.window w).retiring = [] := by
  obtain ⟨hd, he, -⟩ := h.2.2.1 w hu
  exact ⟨((h.1 w).body.closed (by simp [hd])).1, (h.1 w).drain_iff.1 he⟩

/-- A member leaves the drain set of CLEAR (R173). -/
theorem State.carries_leaveClear (s : State) (m : Member) : s.Carries (s.leaveClear m) := by
  cases hc : s.clearRec with
  | none =>
    have : s.leaveClear m = s := by simp [State.leaveClear, hc]
    rw [this]
    exact .refl s
  | some c =>
  by_cases hm : c.drain.has m = true
  case neg =>
    rw [s.leaveClear_absent hc (by simpa using hm)]
    exact .refl s
  have hunder : ∀ w, s.underClear w = true ↔ w ∈ c.closed := fun w => by simp [State.underClear, hc]
  have hpool : State.pool { s with clearRec := some { c with drain := c.drain.remove m } } = s.pool := by
    refine Pool.ext rfl rfl (funext fun o => ?_) rfl rfl rfl rfl rfl
    cases o with
    | none =>
      show c.retiring = s.clearRetiring
      unfold State.clearRetiring
      rw [hc]
    | some w => rfl
  by_cases he : c.drain.remove m = DrainSet.empty
  · rw [s.leaveClear_ends hc hm he]
    refine ⟨by simp, fun h => ?_, fun _ hv => ?_, fun h hp => ?_⟩
    · exact State.windowsWf_endClearDrain rfl h.1 fun w hd hempty => (hunder w).1 (h.2.1 w hd hempty)
    · exact State.viewsOk_endClearDrain rfl hv
    · refine State.coherent_endClearDrain rfl (hpool ▸ hp) fun w hw => ?_
      exact h.cleared_empty ((hunder w).2 hw)
  · rw [s.leaveClear_stays hc hm he]
    refine ⟨rfl, fun h => ⟨h.1, fun w hd hempty => ?_, fun w hu => ?_, fun d hd => ?_⟩, fun _ => id,
      fun _ hp => hpool ▸ hp⟩
    · exact decide_eq_true ((hunder w).1 (h.2.1 w hd hempty))
    · exact h.2.2.1 w ((hunder w).2 (of_decide_eq_true hu))
    · cases hd
      exact he

theorem State.carries_leave (s : State) (w : WSlot) (m : Member) : s.Carries (s.leave w m) := by
  unfold State.leave
  split
  · exact s.carries_leaveClear m
  · exact s.carries_leaveWindow w m

theorem State.carries_leaveOwner (s : State) (o : DrainOwner) : s.Carries (s.leaveOwner o) := by
  cases o with
  | window w => exact s.carries_leaveWindow w .rle
  | clear => exact s.carries_leaveClear .rle

end ClearDrain

end Sys2Proof.Machine
end

section
/-!
Extents leave a window at SHRINK and at every close, a relocation abandoned with its source (R33, R85 to R91, R149),
and CLEAR empties every window (R39, R152, R171, R172).
-/

namespace Sys2Proof.Machine

section Losing

variable {s : State} {l : List Extent}

theorem Rle.live_abandon (r : Rle) (o : DrainOwner) : (r.abandon o).live = none := by cases r <;> rfl

/-- Which relocation is abandoned when extents leave: the one in progress whose source is among them (R149). -/
theorem State.abandoned_eq (s : State) (l : List Extent) :
    (s.abandoned l).map Prod.fst =
      match s.rle.live with
      | none => none
      | some (src, tgt) => if src ∈ l then some tgt else none := by
  unfold State.abandoned
  split
  · next hr => rw [hr]; simp only [Rle.live]; split <;> rfl
  · next hr => rw [hr]; rfl
  · next sw _ hr =>
    rw [hr]
    cases sw with
    | notRequested | requested => simp only [Rle.live]; split <;> rfl
    | taken a b => exact absurd hr (by simp_all)
  all_goals
    next hr => rw [hr]; rfl

theorem State.pool_of_abandoned_none (h : s.abandoned l = none) :
    s.pool.leaving l = l ∧ s.pool.liveWithout l = s.rle.live := by
  have hlive := s.abandoned_eq l
  rw [h] at hlive
  simp only [Pool.leaving, Pool.liveWithout, State.pool]
  cases hl : s.rle.live with
  | none => exact ⟨rfl, rfl⟩
  | some y =>
    obtain ⟨src, tgt⟩ := y
    have hs : src ∉ l := fun hs => by simp [hl, hs] at hlive
    simp [hs]

theorem State.pool_of_abandoned_some {tgt : Extent} {b : Bool} (h : s.abandoned l = some (tgt, b)) :
    s.pool.leaving l = l ++ [tgt] ∧ s.pool.liveWithout l = none := by
  have hlive := s.abandoned_eq l
  rw [h] at hlive
  simp only [Pool.leaving, Pool.liveWithout, State.pool]
  cases hl : s.rle.live with
  | none => simp [hl] at hlive
  | some y =>
    obtain ⟨src, tgt'⟩ := y
    by_cases hs : src ∈ l <;> simp [hl, hs] at hlive ⊢
    exact hlive.symm

theorem State.retiringOf_eq (s : State) (l : List Extent) : s.retiringOf l = s.pool.leaving l := by
  unfold State.retiringOf
  cases h : s.abandoned l with
  | none => exact (State.pool_of_abandoned_none h).1.symm
  | some y => exact (State.pool_of_abandoned_some h).1.symm

/-- What the loss of extents does to the outline, the window's own record aside (R33, R149). -/
theorem State.outline_loseExtents (s : State) (w : WSlot) (l : List Extent) :
    (s.loseExtents w l).outline = { s.outline with
      pool := { s.pool with
        st := fun e => if e ∈ s.pool.leaving l then .retiring else s.pool.st e
        reloc := s.pool.reloc.filter fun e => decide (e ∉ l)
        live := s.pool.liveWithout l } } := by
  have hmap : ∀ e, ((s.mapExtents fun e x => if e ∈ l then { x with st := .retiring } else x).entry e).st =
      if e ∈ l then .retiring else (s.entry e).st := fun e => by
    rw [State.entry_mapExtents]
    split <;> rfl
  unfold State.loseExtents
  dsimp only
  cases h : s.abandoned l with
  | none =>
    obtain ⟨hleaving, hlive⟩ := State.pool_of_abandoned_none h
    exact Outline.ext rfl rfl rfl rfl
      (Pool.ext (funext fun e => by rw [hleaving]; exact hmap e) rfl rfl rfl rfl rfl rfl hlive.symm)
  | some y =>
    obtain ⟨tgt, b⟩ := y
    obtain ⟨hleaving, hlive⟩ := State.pool_of_abandoned_some h
    refine Outline.ext rfl rfl rfl rfl (Pool.ext (funext fun e => ?_) rfl rfl rfl rfl rfl rfl ?_)
    · refine (State.st_updExtent tgt e .retiring _ fun _ => rfl).trans ?_
      rw [hleaving]
      by_cases he : e = tgt
      · simp [he]
      · simp only [he, if_false, List.mem_append, List.mem_singleton, or_false]
        exact hmap e
    · exact (Rle.live_abandon _ _).trans hlive.symm

/-- The extents that leave are in no retiring list yet, and none of them twice. -/
theorem Pool.Coherent.leaving_nodup {q : Pool} (h : q.Coherent) {g : Handle} {k : List Extent}
    (hsplit : q.held g = k ++ l) (o : Option WSlot) : (q.waiting o ++ q.leaving l).Nodup := by
  have hplace : ∀ x ∈ l, ∃ i, (q.st x).place = some (g, i) := fun x hx =>
    h.place_of_mem (by rw [hsplit]; exact List.mem_append_right _ hx)
  have hl : l.Nodup := (List.nodup_append'.1 (hsplit ▸ h.heldNodup g)).2.1
  have hleaving : (q.leaving l).Nodup := by
    unfold Pool.leaving
    cases hlive : q.live with
    | none => exact hl
    | some y =>
      obtain ⟨src, tgt⟩ := y
      dsimp only
      split
      · refine hl.append (List.nodup_singleton _) fun x hx hx' => ?_
        obtain ⟨i, hi⟩ := hplace x hx
        rw [List.mem_singleton.1 hx', (h.target tgt).2 ⟨src, hlive⟩] at hi
        cases hi
      · exact hl
  refine (h.waitingNodup o).append hleaving fun x hx hx' => ?_
  have hst := (h.waits x).1 ⟨o, hx⟩
  rcases Pool.mem_leaving.1 hx' with hx' | ⟨src, hlive, -⟩
  · obtain ⟨i, hi⟩ := hplace x hx'
    rw [hst] at hi
    cases hi
  · rw [(h.target x).2 ⟨src, hlive⟩] at hst
    cases hst

/-- The retiring list of a window after extents have left it, up to its order (R95). -/
theorem State.retiringWith_perm (s : State) (w : WSlot) (l : List Extent) :
    (s.retiringWith w l).Perm ((s.window w).retiring ++ s.pool.leaving l) := by
  have hsplit := List.filter_append_perm (fun e => decide (s.waitingTarget w ≠ some e)) (s.window w).retiring
  have hneg : (s.window w).retiring.filter (fun e => decide (s.waitingTarget w = some e)) =
      (s.window w).retiring.filter (fun e => !decide (s.waitingTarget w ≠ some e)) :=
    List.filter_congr fun e _ => by simp
  unfold State.retiringWith
  rw [hneg, s.retiringOf_eq, List.append_assoc]
  exact (List.Perm.append_left _ List.perm_append_comm).trans
    (by rw [← List.append_assoc]; exact hsplit.append_right _)

end Losing

section Parting

variable {s : State}

/-- The records after extents have left a window: only its own changes, and ends its drain if that is empty. -/
theorem State.window_part {u : State} {w : WSlot} {l : List Extent} {f : Window → Window}
    (hu : u.outline = (s.loseExtents w l).outline) (v : WSlot) :
    ((u.updWindow w f).endDrainIfEmpty w).window v = if v = w then (f (s.window w)).endIfEmpty else s.window v := by
  have huw := State.window_congr (congrArg Outline.windows (hu.trans (s.outline_loseExtents w l)))
  rw [State.window_endDrainIfEmpty, State.window_updWindow, huw]
  by_cases hv : v = w
  · simp [hv]
  · simp [hv]

/-- Extents leave an OPEN window, whose new record then ends its drain if that is empty: what SHRINK and a close
have in common (R85 to R91). `u` is the state after the loss of the extents, up to what is told to ports. -/
theorem State.carries_part {u : State} {w : WSlot} {kept l : List Extent} {f : Window → Window}
    (hu : u.outline = (s.loseExtents w l).outline) (hs : (s.window w).state = .opened)
    (hsplit : (s.window w).extents = kept ++ l) (hl : (s.window w).Wf → l ≠ [])
    (hgen : (f (s.window w)).gen = (s.window w).gen)
    (hext : (f (s.window w)).extents = kept) (hret : (f (s.window w)).retiring = s.retiringWith w l)
    (hbody : (s.window w).Wf → (f (s.window w)).Body)
    (hstate : (f (s.window w)).state = .opened ∨ (f (s.window w)).state = .draining)
    (hnarrow : (s.window w).Narrows (f (s.window w))) : s.Carries ((u.updWindow w f).endDrainIfEmpty w) := by
  obtain ⟨hresetn, hstraps, hwindows, hclear, hpool⟩ := Outline.mk.inj (hu.trans (s.outline_loseExtents w l))
  have hresetn : u.resetn = s.resetn := hresetn
  have hstraps : u.straps = s.straps := hstraps
  have hclear : u.clearRec.map ClearRecord.work = s.clearRec.map ClearRecord.work := hclear
  have huw := State.window_congr hwindows
  have hperm := s.retiringWith_perm w l
  have hne : (s.window w).Wf → s.retiringWith w l ≠ [] := by
    intro hw
    have hsub : l ⊆ s.pool.leaving l := fun x hx => Pool.mem_leaving.2 (Or.inl hx)
    intro hnil
    rw [hnil] at hperm
    obtain ⟨-, hnil'⟩ := List.append_eq_nil_iff.1 hperm.symm.eq_nil
    rw [hnil'] at hsub
    exact hl hw (List.subset_nil.1 hsub)
  have hwindow := State.window_part (f := f) hu
  refine ⟨by simpa using hresetn, fun h => h.replace (by simpa using hclear) fun v => ?_,
    fun h hv => hv.narrow (by simpa using hstraps) fun v => ?_,
    fun h hp => State.coherent_endDrainIfEmpty ?_ fun hd => ?_⟩
  · rw [hwindow]
    split
    · next hv =>
      exact Or.inr ⟨h.not_underClear (Or.inl (by simp [hv, hs])),
        (hbody (h.1 w)).endIfEmpty hstate (by rw [hret]; exact hne (h.1 w))⟩
    · exact Or.inl rfl
  · rw [hwindow]
    split
    · next hv => exact hv ▸ hnarrow.trans (Window.narrows_endIfEmpty _)
    · exact .refl _
  · have hheld : s.pool.held (s.handleOf w) = kept ++ l := (s.heldBy_handleOf w).trans hsplit
    have hnodup := hp.leaving_nodup hheld (some w)
    have hparted := hp.part (w := w) hheld (hperm.nodup_iff.2 hnodup) fun x => (hperm.mem_iff.trans List.mem_append)
    have heq : (u.updWindow w f).pool = s.pool.part (s.handleOf w) w kept l (s.retiringWith w l) := by
      rw [State.pool_updWindow (by rw [huw, hgen]), hpool, huw, hext, hret]
      unfold State.handleOf
      rw [huw]
      rfl
    rw [heq]
    exact hparted
  · rw [State.window_updWindow_self, huw] at hd ⊢
    exact ((hbody (h.1 w)).closed (by simp [hd])).1

theorem State.carries_shrinkBy {w : WSlot} {n : Nat} (hs : (s.window w).state = .opened) (h1 : 1 ≤ n)
    (hn : n < (s.window w).extents.length) : s.Carries (s.shrinkBy w n) := by
  refine State.carries_part (kept := (s.window w).extents.take ((s.window w).extents.length - n)) rfl hs
    (List.take_append_drop _ _).symm (fun _ hnil => ?_) rfl rfl rfl (fun h => ?_) (Or.inl hs) ?_
  · rw [List.drop_eq_nil_iff] at hnil
    omega
  · refine h.body.shrinking hs ?_ ?_ _ _ <;> have := h.body.size hs <;> rw [List.length_take] <;> omega
  · exact Window.narrows_shrinking hs (List.length_take_le' _ _) _ _

theorem State.carries_closeWindow {cause : Port} {forced : Bool} {w : WSlot} (hs : (s.window w).state = .opened) :
    s.Carries (s.closeWindow cause forced w) := by
  refine State.carries_part (kept := []) rfl hs rfl (fun h hnil => ?_) rfl rfl rfl
    (fun h => h.body.closing hs forced _ _) (Or.inr rfl) (Window.narrows_closing hs forced _ _)
  have := (h.body.size hs).1
  rw [hnil] at this
  cases this

/-- A close leaves every other window as it is, and its own window OPEN no more (R89). -/
theorem State.window_closeWindow (s : State) (cause : Port) (forced : Bool) (w : WSlot) :
    ((s.closeWindow cause forced w).window w).state ≠ .opened ∧
      ∀ v, v ≠ w → (s.closeWindow cause forced w).window v = s.window v := by
  have hwindow : ∀ v, (s.closeWindow cause forced w).window v =
      if v = w then ((s.window w).closing forced ((s.window w).drain.union (s.drainFormed w (s.window w).extents))
        (s.retiringWith w (s.window w).extents)).endIfEmpty else s.window v := State.window_part rfl
  refine ⟨?_, fun v hv => by rw [hwindow, if_neg hv]⟩
  rw [hwindow, if_pos rfl]
  exact Window.endIfEmpty_not_opened rfl

end Parting

section Clearing

variable {s : State}

theorem Rle.live_clear (r : Rle) : r.clear.live = none := by
  cases r with
  | cutover src tgt ptr aw cl bu sw => cases sw <;> rfl
  | idle | waiting | copying | abandoning => rfl

theorem Entry.clear_st (x : Entry) : x.clear.st = x.st.cleared := by
  unfold Entry.clear
  cases hx : x.st <;> simp [ExtState.cleared, hx]

/-- What CLEAR does to the tables, field by field (R39, R152, R172). -/
theorem State.clearTables_eq (s : State) :
    s.clearTables.resetn = s.resetn ∧ s.clearTables.straps = s.straps ∧
    (∀ w, s.clearTables.window w = (s.window w).clear) ∧
    (∀ e, (s.clearTables.entry e).st = (s.entry e).st.cleared) ∧ s.clearTables.freeList = s.freeList ∧
    s.clearTables.wipeList = s.wipeList ∧ s.clearTables.relocList = [] ∧ s.clearTables.wpe = s.wpe ∧
    s.clearTables.rle = s.rle.clear := by
  have hwindow : ∀ w, Tab.get (Tab.mapAll s.windows fun _ w => w.clear) w = (s.window w).clear :=
    fun w => Tab.get_mapAll _ _ w
  have hentry : ∀ e, (Tab.get (Tab.mapAll s.extents fun _ x => x.clear) e).st = (s.entry e).st.cleared := fun e => by
    rw [Tab.get_mapAll, Entry.clear_st]
    rfl
  unfold State.clearTables
  dsimp only
  split <;> exact ⟨rfl, rfl, hwindow, hentry, rfl, rfl, rfl, rfl, rfl⟩

theorem State.pool_clearTables (h : ∀ w, (s.window w).Wf) (live : Bool) :
    State.pool { s.clearTables with clearRec := some (s.clearRecord live) } =
      s.pool.cleared s.clearTables.retiringExtents := by
  obtain ⟨-, -, hwindow, hentry, hfree, hwipe, hreloc, hwpe, hrle⟩ := s.clearTables_eq
  refine Pool.ext (funext hentry) (funext fun g => ?_) (funext fun o => ?_) hfree hwipe hreloc ?_ ?_
  · show (if _ then (s.clearTables.window g.slot).extents else []) = []
    rw [hwindow, (h g.slot).clear_empty.2.1, ite_self]
  · cases o with
    | none => rfl
    | some w =>
      show (s.clearTables.window w).retiring = []
      rw [hwindow]
      exact (h w).clear_empty.2.2
  · exact congrArg Wpe.current hwpe
  · show s.clearTables.rle.live = none
    rw [hrle]
    exact Rle.live_clear _

theorem State.coherent_clearTables (h : ∀ w, (s.window w).Wf) (live : Bool) (hp : s.pool.Coherent) :
    (State.pool { s.clearTables with clearRec := some (s.clearRecord live) }).Coherent := by
  obtain ⟨-, -, -, hentry, -⟩ := s.clearTables_eq
  rw [State.pool_clearTables h]
  refine hp.cleared (Tab.indices_nodup _ _) fun x => ?_
  refine (Tab.mem_indices _ _ _).trans ?_
  rw [decide_eq_true_iff]
  show (s.clearTables.entry x).st = _ ↔ _
  rw [hentry]
  rfl

theorem State.mem_closedByClear (s : State) (w : WSlot) : w ∈ s.closedByClear ↔ (s.window w).state ≠ .vacant := by
  unfold State.closedByClear
  rw [Tab.mem_indices, decide_eq_true_iff]
  rfl

/-- A window slot that is DRAINING after CLEAR was in use before it. -/
theorem State.closed_of_clear {w : WSlot} (h : ((s.window w).clear).state = .draining) : w ∈ s.closedByClear := by
  rw [State.mem_closedByClear]
  intro hv
  rw [Window.clear_vacant hv, hv] at h
  cases h

theorem State.viewsOk_clearTables (h : ∀ w, (s.window w).Wf) (live : Bool) (hv : s.ViewsOk) :
    State.ViewsOk { s.clearTables with clearRec := some (s.clearRecord live) } := by
  obtain ⟨-, hstraps, hwindow, -⟩ := s.clearTables_eq
  refine hv.narrow hstraps fun w k v hk => ?_
  have : (s.clearTables.window w).grant k = .vacant := by
    rw [hwindow]
    exact (h w).clear_empty.1 k
  change ((s.clearTables.window w).grant k).viewOf = some v at hk
  rw [this] at hk
  cases hk

/-- CLEAR with work left for its drain (R172). -/
theorem State.carries_clear (hd : s.clearDrain ≠ DrainSet.empty) (live : Bool) :
    s.Carries { s.clearTables with clearRec := some (s.clearRecord live) } := by
  obtain ⟨hresetn, -, hwindow, -⟩ := s.clearTables_eq
  have hunder : ∀ w, State.underClear { s.clearTables with clearRec := some (s.clearRecord live) } w = true ↔
      w ∈ s.closedByClear := fun w => decide_eq_true_iff
  refine ⟨hresetn, fun h => ⟨fun w => ?_, fun w hs _ => ?_, fun w hu => ?_, fun c hc => ?_⟩,
    fun h hv => State.viewsOk_clearTables h.1 live hv, fun h hp => State.coherent_clearTables h.1 live hp⟩
  · show (s.clearTables.window w).Wf
    rw [hwindow]
    exact (h.1 w).clear
  · change (s.clearTables.window w).state = .draining at hs
    rw [hwindow] at hs
    exact (hunder w).2 (State.closed_of_clear hs)
  · show (s.clearTables.window w).state = .draining ∧ (s.clearTables.window w).drain = DrainSet.empty ∧
      (s.clearTables.window w).grants = Vector.replicate 6 .vacant
    rw [hwindow]
    exact Window.clear_state ((s.mem_closedByClear w).1 ((hunder w).1 hu))
  · cases hc
    exact hd

/-- CLEAR whose drain is empty ends it at the take (R172). -/
theorem State.carries_clear_end (s : State) (live : Bool) :
    s.Carries (State.endClearDrain { s.clearTables with clearRec := some (s.clearRecord live) }) := by
  obtain ⟨hresetn, -, hwindow, -⟩ := s.clearTables_eq
  refine ⟨(State.endClearDrain_resetn _).trans hresetn, fun h => ?_,
    fun h hv => State.viewsOk_endClearDrain rfl (State.viewsOk_clearTables h.1 live hv),
    fun h hp => State.coherent_endClearDrain rfl (State.coherent_clearTables h.1 live hp) fun w _ => ?_⟩
  · refine State.windowsWf_endClearDrain rfl (fun w => ?_) fun w hs _ => ?_
    · show (s.clearTables.window w).Wf
      rw [hwindow]
      exact (h.1 w).clear
    · change (s.clearTables.window w).state = .draining at hs
      rw [hwindow] at hs
      exact State.closed_of_clear hs
  · show (s.clearTables.window w).extents = [] ∧ (s.clearTables.window w).retiring = []
    rw [hwindow]
    exact (h.1 w).clear_empty.2

end Clearing

end Sys2Proof.Machine
end

section
/-!
The port reset (R60, R70, R165), requests at a port and the completions of units carry the invariants of windows,
views and pool.
-/

namespace Sys2Proof.Machine

section PortReset

variable {s : State}

/-- Closes one after the other, each of a window that is OPEN when the first begins: afterwards the windows that are
OPEN are the others, unchanged. -/
theorem State.carries_closes (cause : Port) (l : List WSlot) : ∀ s : State, l.Nodup →
    (∀ w ∈ l, (s.window w).state = .opened) →
    s.Carries (l.foldl (fun t w => t.closeWindow cause false w) s) ∧
      ∀ v, ((l.foldl (fun t w => t.closeWindow cause false w) s).window v).state = .opened →
        v ∉ l ∧ (l.foldl (fun t w => t.closeWindow cause false w) s).window v = s.window v := by
  induction l with
  | nil => exact fun s _ _ => ⟨.refl s, fun v _ => ⟨nofun, rfl⟩⟩
  | cons w l ih =>
    intro s hn hopen
    obtain ⟨hw, hn⟩ := List.nodup_cons.1 hn
    obtain ⟨hclosed, hothers⟩ := s.window_closeWindow cause false w
    have hkeep : ∀ v ∈ l, ((s.closeWindow cause false w).window v).state = .opened := fun v hv => by
      rw [hothers v fun he => hw (he ▸ hv)]
      exact hopen v (List.mem_cons_of_mem _ hv)
    obtain ⟨hcarries, hrest⟩ := ih (s.closeWindow cause false w) hn hkeep
    refine ⟨(State.carries_closeWindow (hopen w List.mem_cons_self)).trans hcarries, fun v hv => ?_⟩
    obtain ⟨hnot, hsame⟩ := hrest v hv
    have hne : v ≠ w := by
      rintro rfl
      refine hclosed ?_
      rw [← hsame]
      exact hv
    exact ⟨by simp [hne, hnot], hsame.trans (hothers v hne)⟩

theorem State.mem_closeOrder {p : Port} {w : WSlot} :
    w ∈ s.closeOrder p ↔ (s.window w).state = .opened ∧ (s.window w).owner = some p := by
  unfold State.closeOrder State.ownedBy
  rw [List.mem_insertionSort, List.mem_filter, Bool.and_eq_true, decide_eq_true_iff, decide_eq_true_iff]
  simp

theorem State.closeOrder_nodup (s : State) (p : Port) : (s.closeOrder p).Nodup :=
  (List.perm_insertionSort _ _).nodup_iff.2 ((List.nodup_finRange 128).filter _)

/-- After its windows are closed the agent owns no OPEN window (R165). -/
theorem State.carries_closeOwned (s : State) (p cause : Port) :
    s.Carries (s.closeOwned p cause) ∧ ∀ v, ((s.closeOwned p cause).window v).state = .opened →
      ((s.closeOwned p cause).window v).owner ≠ some p := by
  obtain ⟨hcarries, hrest⟩ := State.carries_closes cause (s.closeOrder p) s (s.closeOrder_nodup p)
    fun w hw => (State.mem_closeOrder.1 hw).1
  refine ⟨hcarries.quiet rfl, fun v hv ho => ?_⟩
  obtain ⟨hnot, hsame⟩ := hrest v hv
  have hv' : (s.closeOwned p cause).window v = s.window v := hsame
  rw [hv'] at hv ho
  exact hnot (State.mem_closeOrder.2 ⟨hv, ho⟩)

theorem State.carries_vacateAgent {p cause : Port}
    (h : ∀ v, (s.window v).state = .opened → (s.window v).owner ≠ some p) : s.Carries (s.vacateAgent p cause) := by
  have hregrants : s.WindowsWf → ∀ w, (s.window w).Regrants
      (Tab.get (Tab.mapAll s.windows fun _ x => x.withoutAgent p) w) := fun hw w => by
    rw [Tab.get_mapAll]
    exact Window.regrants_withoutAgent (hw.1 w) (h w)
  exact (State.carries_regrant hregrants).quiet rfl

theorem State.carries_resetAccess (s : State) (p : Port) : s.Carries (s.resetAccess p) := by
  unfold State.resetAccess
  split
  · next a _ =>
    have h1 : s.Carries (s.updPort p fun u => { u with access := .idle }) := .of_outline rfl
    exact (h1.trans (State.carries_leave _ _ _)).quiet (State.outline_endHoldWait _ p)
  · exact .of_outline rfl
  · exact .refl s
  · exact .refl s

theorem State.carries_resetPort (s : State) (p cause : Port) : s.Carries (s.resetPort p cause) := by
  have h1 := (State.Carries.of_outline (s.outline_abortSlot p)).trans ((s.abortSlot p).carries_resetAccess p)
  unfold State.resetPort
  dsimp only
  obtain ⟨hclosed, hnone⟩ := State.carries_closeOwned (((s.abortSlot p).resetAccess p).updPort p fun u =>
      { u with mask := 0, fault := none, response := none }) p cause
  exact (((h1.quiet (State.outline_updPort _ _ _)).trans hclosed).trans (State.carries_vacateAgent hnone)).quiet
    (State.outline_updPort _ _ _)

end PortReset

section Requests

variable (s : State)

theorem State.outline_admitAccess (p : Port) (a : AccessRec) : (s.admitAccess p a).outline = s.outline := by
  unfold State.admitAccess
  dsimp only
  split
  · rw [State.outline_grantMemory]
    rfl
  all_goals rfl

theorem State.outline_viewSteps (p : Port) (r : Request) : (s.viewSteps p r).outline = s.outline := by
  unfold State.viewSteps
  split
  · exact s.outline_deny _ _ _ _
  · exact s.outline_deny _ _ _ _
  · split
    · exact s.outline_deny _ _ _ _
    · exact s.outline_admitAccess _ _

theorem State.outline_viewRequest (p : Port) (r : Request) : (s.viewRequest p r).outline = s.outline := by
  unfold State.viewRequest
  split
  · exact s.outline_deny _ _ _ _
  · split
    · rfl
    · split
      · rfl
      all_goals exact s.outline_viewSteps p r

theorem State.outline_controlStore (p : Port) (offset : Nat) (value : Word) :
    (s.controlStore p offset value).outline = s.outline := by
  unfold State.controlStore
  dsimp only
  split
  iterate 5
    · split <;> rfl
  all_goals rfl

theorem State.outline_controlRequest (p : Port) (r : Request) : (s.controlRequest p r).outline = s.outline := by
  unfold State.controlRequest
  split
  · exact s.outline_deny _ _ _ _
  · split
    · exact s.outline_deny _ _ _ _
    · split
      · rfl
      · exact s.outline_controlStore _ _ _

/-- No request at a port touches windows, views or pool. -/
theorem State.outline_takeRequest (p : Port) (r : Request) : (s.takeRequest p r).outline = s.outline := by
  unfold State.takeRequest
  split
  · dsimp only
    split
    · exact State.outline_controlRequest _ p r
    · exact State.outline_viewRequest _ p r
  · rfl

end Requests

section Completions

variable {s : State}

theorem Rle.live_completed (r : Rle) (p : Port) (e : Extent) : (r.completed p e).live = r.live := by
  unfold Rle.completed
  split
  · next src tgt ptr aw cl bu =>
    split
    · unfold SwapState.request
      split <;> rfl
    · rfl
  all_goals rfl

theorem Rle.live_takeAnswer (r : Rle) (p : Port) : (r.takeAnswer p).live = r.live := by
  unfold Rle.takeAnswer
  split
  · split
    · unfold SwapState.request
      split <;> rfl
    · rfl
  all_goals rfl

theorem State.outline_answerAccess (s : State) (p : Port) (a : AccessRec) (o : Option WordRead) :
    (s.answerAccess p a o).outline = s.outline := by
  unfold State.answerAccess
  dsimp only
  split
  · rfl
  · exact s.outline_recordFault _ _ _ _ _

theorem State.carries_completeAccess (s : State) (p : Port) (a : AccessRec) (live : Bool) (m : Option Extent)
    (x : Bits39) : s.Carries (s.completeAccess p a live m x) := by
  have h1 : s.Carries (State.endUnit { s with mem := (s.performAccess a m x).1 }) := .of_outline rfl
  have h2 := h1.trans (State.carries_report _ a.ext (s.performAccess a m x).2)
  unfold State.completeAccess
  refine (((State.Carries.quiet ?_ (State.outline_setRle _ (Rle.live_completed _ _ _))).trans
    (State.carries_leave _ _ _)).quiet (State.outline_endHoldWait _ p)).settle
  cases live
  · exact h2.quiet rfl
  · exact (h2.quiet (State.outline_answerAccess _ p a _)).quiet rfl

theorem State.outline_copyBlock (s : State) (src tgt : Extent) (ptr : Nat) (x : Vector Bits39 16) :
    (s.copyBlock src tgt ptr x).outline = s.outline := by
  unfold State.copyBlock
  dsimp only
  rw [State.outline_mapPorts]
  split
  · exact State.outline_updExtent _ _ _ fun _ => rfl
  · rfl

theorem State.rle_copyBlock (s : State) (src tgt : Extent) (ptr : Nat) (x : Vector Bits39 16) :
    (s.copyBlock src tgt ptr x).rle = s.rle := by
  unfold State.copyBlock
  dsimp only
  split <;> rfl

theorem State.live_rleAfterCopy (s : State) (src tgt : Extent) (ptr : Nat) :
    (s.rleAfterCopy src tgt ptr).live = some (src, tgt) := by
  unfold State.rleAfterCopy
  split <;> rfl

/-- Only a present handle is a place (R2). -/
theorem State.handle_of_place (h : s.pool.Coherent) {e : Extent} {g : Handle} {i : Nat}
    (hp : (s.entry e).st.place = some (g, i)) : g = s.handleOf g.slot := by
  have hat : (s.heldBy g)[i]? = some e := (h.held e g i).1 hp
  by_contra hne
  unfold State.heldBy at hat
  rw [if_neg hne] at hat
  cases hat

/-- The exchange of source and target at their place (R146). -/
theorem State.pool_swapExtents (src tgt : Extent) {g : Handle} (i : Nat) (hg : g = s.handleOf g.slot) :
    (s.swapExtents src tgt g i).pool = { s.pool.swap src tgt g i with live := s.pool.live } := by
  have h1 : (s.updWindow g.slot fun w => { w with extents := w.extents.set i tgt }).pool = _ :=
    State.pool_updWindow rfl
  have hst : ∀ e, (s.swapExtents src tgt g i).pool.st e = (s.pool.swap src tgt g i).st e := fun e => by
    refine (State.st_updExtent src e (.quarantined .relocated) _ fun _ => rfl).trans ?_
    rw [State.st_updExtent tgt e (.bound g i) _ fun _ => rfl]
    rfl
  have hheld : (s.swapExtents src tgt g i).pool.held = (s.pool.swap src tgt g i).held := by
    refine (congrArg Pool.held h1).trans (funext fun g' => ?_)
    have : s.pool.held g = (s.window g.slot).extents := by
      rw [hg]
      exact s.heldBy_handleOf g.slot
    simp only [Pool.swap, this, ← hg]
  have hwaiting : (s.swapExtents src tgt g i).pool.waiting = (s.pool.swap src tgt g i).waiting := by
    refine (congrArg Pool.waiting h1).trans (funext fun o => ?_)
    dsimp only
    split
    · next ho => rw [ho]; rfl
    · rfl
  exact Pool.ext (funext hst) hheld hwaiting rfl rfl rfl rfl rfl

theorem State.window_swapExtents (s : State) (src tgt : Extent) (g : Handle) (i : Nat) (w : WSlot) :
    (s.swapExtents src tgt g i).window w =
      if w = g.slot then { s.window w with extents := (s.window w).extents.set i tgt } else s.window w :=
  State.window_updWindow s g.slot w _

/-- The swap (R146): the engine has asked for it and its source is MOVING. -/
theorem State.carries_swapExtents {src tgt : Extent} {g : Handle} {i : Nat} {r : Rle}
    (hlive : s.rle.live = some (src, tgt)) (hs : (s.entry src).st = .moving g i)
    (hr : r.live = none) : s.Carries { s.swapExtents src tgt g i with rle := r } := by
  have hwindow : ∀ w, State.window { s.swapExtents src tgt g i with rle := r } w = _ :=
    s.window_swapExtents src tgt g i
  refine ⟨rfl, fun h => h.replace rfl fun w => ?_, fun _ hv => hv.narrow rfl fun w => ?_, fun _ hp => ?_⟩
  · rw [hwindow]
    by_cases ho : (s.window w).state = .opened
    · split
      · obtain ⟨h1, h128⟩ := (h.1 w).body.size ho
        refine Or.inr ⟨h.not_underClear (Or.inl (by simp [ho])), (h.1 w).setExtents ho ?_ ?_, fun hd => ?_⟩
        · rwa [List.length_set]
        · rwa [List.length_set]
        · have : (s.window w).state = .draining := hd
          rw [ho] at this
          cases this
      · exact Or.inl rfl
    · split
      · left
        rw [((h.1 w).body.closed ho).1, List.set_nil, ← ((h.1 w).body.closed ho).1]
      · exact Or.inl rfl
  · rw [hwindow]
    split
    · exact fun k v hk => ⟨hk, by simp [Window.viewLen]⟩
    · exact .refl _
  · have hg := State.handle_of_place hp (e := src) (g := g) (i := i) (by rw [hs]; rfl)
    have hpool : State.pool { s.swapExtents src tgt g i with rle := r } =
        { (s.swapExtents src tgt g i).pool with live := r.live } := rfl
    rw [hpool, State.pool_swapExtents src tgt i hg, hr]
    exact hp.swap hlive hs

end Completions

end Sys2Proof.Machine
end

section
/-!
The invariants of windows and views (O58) and of the pool (O59) along every step, and at power-on (O60).
-/

namespace Sys2Proof.Machine

section Keeps

variable {s t : State}

theorem State.poolInv_iff (s : State) : s.PoolInv ↔ s.WindowsWf ∧ (s.resetn = false → s.pool.Coherent) := by
  rw [State.PoolInv, State.coherent_iff]

/-- A step from `s` to `t` keeps the invariants. -/
def State.Keeps (s t : State) : Prop := (s.WindowsInv → t.WindowsInv) ∧ (s.PoolInv → t.PoolInv)

theorem State.Carries.keeps (h : s.Carries t) : s.Keeps t := by
  refine ⟨fun ⟨hw, hv⟩ => ⟨h.windows hw, h.views hw hv⟩, fun hp => ?_⟩
  obtain ⟨hw, hc⟩ := s.poolInv_iff.1 hp
  exact t.poolInv_iff.2 ⟨h.windows hw, fun hn => h.pool hw (hc (h.resetn ▸ hn))⟩

/-- A change that no well-formed window table allows. -/
theorem State.Carries.absurd (hn : t.resetn = s.resetn) (h : ¬ s.WindowsWf) : s.Carries t :=
  ⟨hn, fun hw => (h hw).elim, fun hw => (h hw).elim, fun hw => (h hw).elim⟩

variable (k : Straps) (pins : PortSet) (queue : List Instr) (epoch idx : Nat)

theorem State.windowsInv_powerOn : (State.powerOn k pins queue epoch idx).WindowsInv := by
  have hwindow := State.window_powerOn k pins queue epoch idx
  refine ⟨⟨fun w => ?_, fun w hd => ?_, nofun, nofun⟩, ?_⟩
  · rw [hwindow]
    exact Window.wf_vacantAt _
  · rw [hwindow] at hd
    cases hd
  · have hnone : ∀ x, ((State.powerOn k pins queue epoch idx).grantAt x).viewOf = none := fun x => by
      unfold State.grantAt
      rw [hwindow, Window.grant_vacantAt]
      rfl
    rw [State.viewsOk_iff]
    refine fun a => ⟨?_, fun x b hx => ?_, fun x y b c _ hx => ?_⟩
    · have : grantSlots.countP ((State.powerOn k pins queue epoch idx).holdsView a) = 0 :=
        List.countP_eq_zero.2 fun x _ hx => by
          obtain ⟨b, hb⟩ := State.holdsView_iff.1 hx
          rw [hnone] at hb
          cases hb
      omega
    all_goals
      rw [hnone] at hx
      cases hx

theorem State.poolInv_powerOn : (State.powerOn k pins queue epoch idx).PoolInv := by
  have hst : ∀ e, (State.powerOn k pins queue epoch idx).pool.st e = .dirty := fun e => by
    show ((State.powerOn k pins queue epoch idx).entry e).st = _
    rw [State.entry_powerOn]
  have hheld : ∀ g, (State.powerOn k pins queue epoch idx).pool.held g = [] := fun g => by
    show State.heldBy _ g = []
    unfold State.heldBy
    rw [State.window_powerOn]
    exact ite_self _
  have hwaiting : ∀ o, (State.powerOn k pins queue epoch idx).pool.waiting o = [] := fun o => by
    cases o with
    | none => rfl
    | some w =>
      show ((State.powerOn k pins queue epoch idx).window w).retiring = []
      rw [State.window_powerOn]
      rfl
  have hwipe : (State.powerOn k pins queue epoch idx).pool.wipe = List.finRange 1024 := by
    simp only [State.pool, State.wipeList_powerOn]
  refine (State.poolInv_iff _).2 ⟨(State.windowsInv_powerOn k pins queue epoch idx).1, fun _ => ?_⟩
  refine ⟨List.nodup_nil, hwipe ▸ List.nodup_finRange 1024, List.nodup_nil, fun e => ?_, fun e => ?_, nofun,
    fun e => ?_, fun e g i => ?_, fun e => ?_, fun e => ?_, fun o => ?_, fun o o' e ho => ?_, fun e => ?_⟩
  · rw [hst]
    exact iff_of_false nofun nofun
  · simp only [hst, hwipe, List.mem_finRange]
  · rw [hst]
    exact iff_of_false nofun nofun
  · rw [hst, hheld]
    exact iff_of_false nofun nofun
  · rw [hst]
    exact iff_of_false nofun nofun
  · rw [hst]
    exact iff_of_false nofun nofun
  · rw [hwaiting]
    exact List.nodup_nil
  · rw [hwaiting] at ho
    cases ho
  · simp [hst, hwaiting]

end Keeps

section Verdicts

variable {s t : State}

theorem Verdict.All.imp {P Q P' Q' : State → Prop} {v : Verdict} (h : v.All P Q) (hp : ∀ u, P u → P' u)
    (hq : ∀ u, Q u → Q' u) : v.All P' Q' := by
  cases v with
  | refuse st => exact True.intro
  | finished u res => exact hp u h
  | inProgress u => exact hq u h

/-- The verdict of every command taken at the Window Directory carries the invariants. -/
theorem taken_carries {c : Instr} {p : Port} {isCode : BitVec 8 → Bool} {body : State → Verdict}
    (hc : takenCommand c = some (p, isCode, body)) (s : State) : (body s).All s.Carries s.Carries := by
  have refl := State.Carries.refl s
  cases c with
  | undefinedCommand p => cases hc; exact True.intro
  | openWindow p =>
    cases hc
    exact openVerdict_all fun w n base hvac h1 h128 hbase hfits hheld hmeets hn =>
      State.carries_openAt hvac h1 h128 hbase hfits hheld hmeets hn
  | grow p =>
    cases hc
    exact growVerdict_all fun w n hs _ _ h128 hfits hclear hn => State.carries_growBy hs h128 hfits hclear hn
  | shrink p => cases hc; exact shrinkVerdict_all fun w n hs h1 hn => (State.carries_shrinkBy hs h1 hn).settle
  | close p => cases hc; exact closeVerdict_all fun w hs => (State.carries_closeWindow hs).settle
  | offer p =>
    cases hc
    exact offerVerdict_all refl fun w k a r l hs ho ha hk _ => (State.carries_offer hs ho ha hk).quiet rfl
  | withdraw p => cases hc; exact withdrawVerdict_all fun w k a hk => (State.carries_dropOffer hk).quiet rfl
  | accept p =>
    cases hc
    exact acceptVerdict_all fun w k r l b hg hbase hheld hfits hmeets =>
      (State.carries_accept hg hbase hheld hfits hmeets).quiet (State.outline_tellOwner _ w)
  | decline p =>
    cases hc
    exact declineVerdict_all fun w k hk => (State.carries_dropOffer hk).quiet (State.outline_tellOwner _ w)
  | revoke p => cases hc; exact revokeVerdict_all fun w k a ho ha hk => (State.carries_revoke ho ha hk).quiet rfl
  | release p =>
    cases hc
    refine releaseVerdict_all fun w k _ hk => ?_
    have h : s.Carries (s.updWindow w fun x => x.released k) :=
      State.carries_updWindow_regrant fun _ => Window.regrants_released hk
    exact ⟨h, h.quiet (State.outline_tellOwner _ w)⟩
  | readWindow p => cases hc; exact readWindowVerdict_all refl
  | readGrant p => cases hc; exact readGrantVerdict_all refl
  | readView p => cases hc; exact readViewVerdict_all refl
  | readOffer p => cases hc; exact readOfferVerdict_all refl
  | readAccount p => cases hc; exact refl
  | setQuota p => cases hc; exact supervisorOnly_all fun _ => setQuotaVerdict_all fun _ _ _ _ _ => .of_outline rfl
  | setRank p => cases hc; exact supervisorOnly_all fun _ => setRankVerdict_all fun _ _ => .of_outline rfl
  | setThreshold p =>
    cases hc
    exact supervisorOnly_all fun _ => setThresholdVerdict_all fun n _ _ => (s.carries_newThreshold n).settle
  | hold p =>
    cases hc
    exact supervisorOnly_all fun _ => holdVerdict_all refl (fun _ => .of_outline rfl) fun _ => .of_outline rfl
  | resume p =>
    cases hc
    refine supervisorOnly_all fun _ => resumeVerdict_all fun q => .of_outline ?_
    unfold State.resumePort
    dsimp only
    split <;> rfl
  | resetPort p =>
    cases hc
    exact supervisorOnly_all fun _ => resetPortVerdict_all fun q => (s.carries_resetPort q p).settle
  | forceClose p =>
    cases hc
    exact supervisorOnly_all fun _ => forceCloseVerdict_all fun w hs => (State.carries_closeWindow hs).settle
  | migrate p =>
    cases hc
    exact supervisorOnly_all fun _ => migrateVerdict_all fun e hb hn => (State.carries_listForRelocation hb hn).settle
  | quarantine p =>
    cases hc
    exact supervisorOnly_all fun _ => quarantineVerdict_all fun e he => State.carries_quarantineExtent he
  | restore p =>
    cases hc
    exact supervisorOnly_all fun _ => restoreVerdict_all fun e he => (State.carries_restore he).settle
  | readExtent p => cases hc; exact supervisorOnly_all fun _ => readExtentVerdict_all refl
  | readPool p => cases hc; exact supervisorOnly_all fun _ => refl
  | clear p =>
    cases hc
    exact supervisorOnly_all fun _ => clearVerdict_all (s.carries_clear_end false).settle
      fun hd => (State.carries_clear hd true).settle
  | _ => cases hc

theorem State.carries_take {p : Port} {isCode : BitVec 8 → Bool} {body : State → Verdict}
    (hbody : ∀ u : State, (body u).All u.Carries u.Carries) (ht : s.takeCommand p isCode body = .next t) :
    s.Carries t := by
  have hserved : s.Carries (s.served p) := .of_outline rfl
  exact State.takeCommand_keeps (P := s.Carries) (Q := s.Carries) (.refl s) hserved
    (fun u st res hu => hu.quiet rfl) (fun u hu => hu.quiet rfl)
    (fun _ => (hbody _).imp (fun _ hu => hserved.trans hu) fun _ hu => hserved.trans hu) ht

end Verdicts

section Commands

variable {s t : State}

theorem execArstnAssert_carries {p : Port} (ht : execArstnAssert p s = .next t) : s.Carries t := by
  unfold execArstnAssert at ht
  dsimp only at ht
  split at ht
  · cases ht; exact .refl s
  · split at ht
    · cases ht; exact .of_outline rfl
    · cases ht
      exact ((State.Carries.of_outline (s.outline_updPort p _)).trans (State.carries_resetPort _ p p)).settle

theorem execAccessCompletion_carries {p : Port} {x : Bits39} (ht : execAccessCompletion p x s = .next t) :
    s.Carries t := by
  unfold execAccessCompletion at ht
  split at ht
  · split at ht
    · cases ht; exact s.carries_completeAccess _ _ _ _ _
    · cases ht; exact .refl s
  · split at ht
    · cases ht; exact s.carries_completeAccess _ _ _ _ _
    · cases ht; exact .refl s
  · cases ht; exact .refl s

/-- Under the invariants no drain of a window waits for its end: what empties it ends it (log 2). -/
theorem execDrainEnd_carries {w : WSlot} (ht : execDrainEnd w s = .next t) : s.Carries t := by
  unfold execDrainEnd at ht
  split at ht
  · next hdue =>
    cases ht
    refine .absurd (by simp) fun h => ?_
    simp only [State.drainEndDue, Bool.and_eq_true, Bool.or_eq_true, Bool.not_eq_true', decide_eq_true_eq,
      DrainSet.isEmpty_iff] at hdue
    obtain ⟨⟨⟨-, hunder⟩, hempty⟩, hs | hr⟩ := hdue
    · rw [h.2.1 w hs hempty] at hunder
      cases hunder
    · exact hr ((h.1 w).drain_iff.1 hempty)
  · cases ht; exact .refl s

theorem execClearDrainEnd_carries (ht : execClearDrainEnd s = .next t) : s.Carries t := by
  unfold execClearDrainEnd at ht
  split at ht
  · next hdue =>
    cases ht
    refine .absurd (by simp) fun h => ?_
    unfold State.clearDrainEndDue at hdue
    cases hc : s.clearRec with
    | none => simp [hc] at hdue
    | some c =>
      simp only [hc, Bool.and_eq_true, DrainSet.isEmpty_iff] at hdue
      exact h.2.2.2 c hc hdue.2
  · cases ht; exact .refl s

theorem execTick_carries (ht : execTick s = .next t) : s.Carries t := by
  unfold execTick at ht
  split at ht
  · cases ht; exact .refl s
  · cases ht
    have hw : s.WindowsWf → ∀ w, (s.window w).Regrants (Tab.get (Tab.mapAll s.windows fun _ x => x.tick) w) :=
      fun h w => by
        rw [Tab.get_mapAll]
        exact Window.regrants_tick (h.1 w)
    exact (State.carries_regrant hw).quiet rfl

theorem execOfferExpiry_carries {w : WSlot} {k : GSlot} (ht : execOfferExpiry w k s = .next t) : s.Carries t := by
  unfold execOfferExpiry at ht
  split at ht
  · next a _ hg =>
    cases ht
    split
    · exact .refl s
    · have hk : ((s.window w).grant k).isOffered = true := by rw [hg]; rfl
      exact ((State.carries_dropOffer hk).quiet (State.outline_addAttention _ a .offers)).quiet
        (State.outline_tellOwner _ w)
  all_goals cases ht; exact .refl s

theorem execInitializationComplete_carries (ht : execInitializationComplete s = .next t) : s.Carries t := by
  unfold execInitializationComplete at ht
  split at ht
  · cases ht; exact .refl s
  · cases ht
    exact State.Carries.settle (.of_outline rfl)

theorem execRefresh_carries (ht : execRefresh s = .next t) : s.Carries t := by
  unfold execRefresh at ht
  split at ht <;> cases ht
  · exact .refl s
  · exact .of_outline rfl

theorem execMemoryGrant_carries (ht : execMemoryGrant s = .next t) : s.Carries t := by
  unfold execMemoryGrant at ht
  split at ht <;> cases ht
  · exact .refl s
  · refine .of_outline ((State.outline_grantMemory _).trans ?_)
    rw [State.endRefresh_eq]
    rfl

theorem execWpeTake_carries (ht : execWpeTake s = .next t) : s.Carries t := by
  unfold execWpeTake at ht
  split at ht <;> cases ht
  · exact .refl s
  · exact s.carries_wpeTake.quiet (State.outline_grantMemory _)

theorem execWipeBlockComplete_carries (ht : execWipeBlockComplete s = .next t) : s.Carries t := by
  unfold execWipeBlockComplete at ht
  split at ht
  · next e b _ _ hwpe =>
    cases ht
    refine .of_outline ((State.outline_grantMemory _).trans ?_)
    have hcur : (s.wpeAfterWipe e b).current = s.wpe.current := by
      unfold State.wpeAfterWipe
      rw [hwpe]
      split <;> rfl
    exact s.outline_setWpe hcur
  · cases ht; exact .refl s

theorem execVerifyBlockComplete_carries {x : Vector Bits39 16} (ht : execVerifyBlockComplete x s = .next t) :
    s.Carries t := by
  unfold execVerifyBlockComplete at ht
  split at ht
  · next e b f _ _ hwpe =>
    cases ht
    have h1 : s.Carries (State.endUnit
        { s with mem := (Memory.verifyWords s.epoch s.mem (s.blockAddr e b) x.toList).1 }) := .of_outline rfl
    refine (h1.trans (State.carries_afterVerify ?_ b _)).settle
    show s.wpe.current = _
    rw [hwpe]
    rfl
  · cases ht; exact .refl s

theorem execRelocationStart_carries (ht : execRelocationStart s = .next t) : s.Carries t := by
  unfold execRelocationStart at ht
  split at ht
  · next hrle hr hf => cases ht; exact (State.carries_startRelocation (Or.inl hrle) hr hf).settle
  · next hrle hr hf => cases ht; exact (State.carries_startRelocation (Or.inr hrle) hr hf).settle
  · cases ht; exact .refl s

theorem execBlockCopyComplete_carries {x : Vector Bits39 16} (ht : execBlockCopyComplete x s = .next t) :
    s.Carries t := by
  unfold execBlockCopyComplete at ht
  split at ht
  · next src tgt ptr _ _ hrle =>
    cases ht
    have h1 := State.Carries.of_outline (s.outline_copyBlock src tgt ptr x)
    refine (h1.quiet (State.outline_setRle _ ?_)).settle
    rw [State.live_rleAfterCopy, State.rle_copyBlock, hrle]
    rfl
  · next src tgt ptr o _ _ hrle =>
    cases ht
    have h1 := State.Carries.of_outline (s.outline_copyBlock src tgt ptr x)
    refine ((h1.quiet (State.outline_setRle _ ?_)).trans (State.carries_leaveOwner _ o)).settle
    rw [State.rle_copyBlock, hrle]
    rfl
  · cases ht; exact .refl s

theorem execSwap_carries (ht : execSwap s = .next t) : s.Carries t := by
  unfold execSwap at ht
  split at ht
  · next src tgt ptr _ _ _ _ hrle =>
    split at ht
    · next g i hs =>
      cases ht
      exact State.carries_swapExtents (by rw [hrle]; rfl) hs rfl
    all_goals cases ht; exact .refl s
  · cases ht; exact .refl s

/-- A port's take of a swap or of an abandonment changes its access alone. -/
theorem State.carries_release {p : Port} {f : AccessRec → AccessRec} {r : Rle} {ah : PortSet}
    (hr : r.live = s.rle.live) :
    s.Carries (State.grantMemory { s.updPort p (fun u => { u with access := u.access.releaseCutover f }) with
      rle := r, abandonHanded := ah }) :=
  .of_outline ((State.outline_grantMemory _).trans (s.outline_setRle hr))

theorem execPortSwapTake_carries {p : Port} (ht : execPortSwapTake p s = .next t) : s.Carries t := by
  unfold execPortSwapTake at ht
  split at ht
  · next hrle =>
    split at ht
    · cases ht
      exact State.carries_release (by rw [hrle]; rfl)
    · cases ht; exact .refl s
  · cases ht; exact .refl s

theorem execSwapAcknowledge_carries {p : Port} (ht : execSwapAcknowledge p s = .next t) : s.Carries t := by
  unfold execSwapAcknowledge at ht
  split at ht
  · next hrle =>
    split at ht
    · split at ht
      · cases ht
        exact State.Carries.settle (.of_outline (s.outline_setRle (by rw [hrle]; rfl)))
      · cases ht
        exact .of_outline (s.outline_setRle (by rw [hrle]; rfl))
    · cases ht; exact .refl s
  · cases ht; exact .refl s

theorem execCutoverAnswer_carries {p : Port} (ht : execCutoverAnswer p s = .next t) : s.Carries t := by
  unfold execCutoverAnswer at ht
  split at ht <;> cases ht
  · exact .refl s
  · exact .of_outline (s.outline_setRle (Rle.live_takeAnswer _ p))

theorem execAbandonmentTake_carries {p : Port} (ht : execAbandonmentTake p s = .next t) : s.Carries t := by
  unfold execAbandonmentTake at ht
  split at ht <;> cases ht
  · exact State.carries_release (r := s.rle) rfl
  · exact .refl s

/-- The assertion of RESETn leaves windows and views, and suspends what is said of the pool (log 14). -/
theorem execResetnAssert_keeps (ht : execResetnAssert s = .next t) : s.Keeps t := by
  unfold execResetnAssert at ht
  split at ht
  · cases ht; exact (State.Carries.refl s).keeps
  · cases ht
    refine ⟨id, fun h => ?_⟩
    obtain ⟨hw, -⟩ := s.poolInv_iff.1 h
    exact (State.poolInv_iff _).2 ⟨hw, nofun⟩

/-- Every command keeps the invariants of windows, views and pool. -/
theorem exec_keeps {c : Instr} (ht : exec c s = .next t) : s.Keeps t := by
  rcases hc : takenCommand c with _ | ⟨p, isCode, body⟩
  case some => exact (State.carries_take (taken_carries hc) (exec_of_taken hc s ▸ ht)).keeps
  cases c with
  | resetnRelease k =>
    cases ht
    exact ⟨fun _ => State.windowsInv_powerOn _ _ _ _ _, fun _ => State.poolInv_powerOn _ _ _ _ _⟩
  | resetnAssert => exact execResetnAssert_keeps ht
  | arstnAssert p => exact (execArstnAssert_carries ht).keeps
  | arstnRelease p => cases ht; exact (State.Carries.of_outline (s.outline_updPort p _)).keeps
  | viewSpaceRequest p r | controlImageRefused p r | controlWordWrite p r =>
    cases ht; exact (State.Carries.of_outline (s.outline_takeRequest p r)).keeps
  | attentionWordWrite p v | noticeWordWrite p v | faultRecordClear p v | commandIssue p v =>
    cases ht; exact (State.Carries.of_outline (s.outline_takeRequest p _)).keeps
  | accessCompletion p x => exact (execAccessCompletion_carries ht).keeps
  | drainEnd w => exact (execDrainEnd_carries ht).keeps
  | clearDrainEnd => exact (execClearDrainEnd_carries ht).keeps
  | holdFinish q =>
    simp only [exec, execHoldFinish] at ht
    split at ht <;> cases ht
    · exact (State.Carries.of_outline (s.outline_endHoldWait q)).keeps
    · exact (State.Carries.refl s).keeps
  | tick => exact (execTick_carries ht).keeps
  | offerExpiry w k => exact (execOfferExpiry_carries ht).keeps
  | initializationComplete => exact (execInitializationComplete_carries ht).keeps
  | refresh => exact (execRefresh_carries ht).keeps
  | memoryGrant => exact (execMemoryGrant_carries ht).keeps
  | wpeTake => exact (execWpeTake_carries ht).keeps
  | wipeBlockComplete => exact (execWipeBlockComplete_carries ht).keeps
  | verifyBlockComplete x => exact (execVerifyBlockComplete_carries ht).keeps
  | relocationStart => exact (execRelocationStart_carries ht).keeps
  | blockCopyComplete x => exact (execBlockCopyComplete_carries ht).keeps
  | swap => exact (execSwap_carries ht).keeps
  | portSwapTake p => exact (execPortSwapTake_carries ht).keeps
  | swapAcknowledge p => exact (execSwapAcknowledge_carries ht).keeps
  | cutoverAnswer p => exact (execCutoverAnswer_carries ht).keeps
  | abandonmentTake p => exact (execAbandonmentTake_carries ht).keeps
  | _ => cases hc

theorem step_keeps (ht : step s = .next t) : s.Keeps t := by
  rcases step_cases ht with rfl | ⟨c, rest, -, hc⟩
  · exact (State.Carries.refl _).keeps
  · have hqueue : State.Keeps s { s with pending := rest } := ⟨id, id⟩
    have hexec := exec_keeps hc
    exact ⟨fun h => hexec.1 (hqueue.1 h), fun h => hexec.2 (hqueue.2 h)⟩

/-- Settles O58: windows stay well formed and views well placed along every command. -/
theorem stepsKeepWindowsAndViewsSound : Obligations.StepsKeepWindowsAndViewsSound :=
  fun _ _ h ht => (step_keeps ht).1 h

/-- Settles O59: each shared operation moves extents of the pool from place to place, and their states with them. -/
theorem stepsKeepPoolCoherent : Obligations.StepsKeepPoolCoherent := fun _ _ h ht => (step_keeps ht).2 h

/-- Settles O60: every release of RESETn, and the machine's reset, is a power-on state. -/
theorem invariantsHoldAtReset : Obligations.InvariantsHoldAtReset := by
  have hpower : ∀ k pins queue epoch idx, (State.powerOn k pins queue epoch idx).RecordsInv ∧
      (State.powerOn k pins queue epoch idx).WindowsInv ∧ (State.powerOn k pins queue epoch idx).PoolInv :=
    fun k pins queue epoch idx => ⟨State.recordsInv_powerOn k pins queue epoch idx,
      State.windowsInv_powerOn k pins queue epoch idx, State.poolInv_powerOn k pins queue epoch idx⟩
  exact ⟨hpower _ _ _ _ _, fun k s => ⟨_, rfl, hpower _ _ _ _ _⟩⟩

end Commands

end Sys2Proof.Machine
end

section
/-!
A request at a port from its sampling to its answer or its admission (R48 to R53, R174): each answer as a change of
the port's own record, one lemma for each check, and the statements about view space and the control image.
-/

namespace Sys2Proof.Machine

section Arrival

variable {s : State} {p : Port} {r : Request}

/-- Changes of one port's record in a row are one change. -/
theorem State.updPort_updPort (f g : PortUnit → PortUnit) :
    (s.updPort p f).updPort p g = s.updPort p fun u => g (f u) :=
  congrArg (fun v => { s with ports := v }) (Tab.upd_upd s.ports p f g)

/-- Changes of a port's record that agree on the record as it stands lead to one state. -/
theorem State.updPort_congr {f g : PortUnit → PortUnit} (h : f (s.port p) = g (s.port p)) :
    s.updPort p f = s.updPort p g :=
  congrArg (fun v => { s with ports := v }) (Tab.upd_congr s.ports p h)

/-- The part once port `p` has sampled a request: no response is presented before the answer (R174, log 25). -/
def State.sampled (s : State) (p : Port) : State := s.updPort p fun u => { u with response := none }

theorem State.takeRequest_view (harrive : s.canArrive p = true) (himage : r.image ≠ 15) :
    s.takeRequest p r = (s.sampled p).viewRequest p r := by
  simp only [State.takeRequest, harrive, if_true, himage, if_false, State.sampled]

theorem State.takeRequest_control (harrive : s.canArrive p = true) (himage : r.image = 15) :
    s.takeRequest p r = (s.sampled p).controlRequest p r := by
  simp only [State.takeRequest, harrive, if_true, himage, State.sampled]

@[simp] theorem State.port_sampled_self : (s.sampled p).port p = { s.port p with response := none } :=
  s.port_updPort_self p _

theorem State.port_sampled_of_ne {q : Port} (hq : q ≠ p) : (s.sampled p).port q = s.port q :=
  s.port_updPort_of_ne hq _

/-- A lookup reads windows and straps alone (R19), so the ports' records have no part in it. -/
@[simp] theorem State.lookup_sampled (q : Port) (off : Nat) : (s.sampled p).lookup q off = s.lookup q off := rfl

/-- The engine's answer and a re-translation read the engine and the windows alone (R142, R147). -/
@[simp] theorem State.admittedAs_sampled (q : Port) (a : AccessRec) :
    (s.sampled p).admittedAs q a = s.admittedAs q a := rfl

/-- Both cases of R62: an empty fault record and a filled one. -/
theorem State.deny_sampled (k : FaultKind) (h : Option Handle) :
    (s.sampled p).deny p k r h = s.denied p r k h := by
  unfold State.deny State.recordFault
  simp only [State.port_sampled_self]
  cases hfault : (s.port p).fault with
  | none =>
    calc _ = s.updPort p fun u =>
          { u with response := some ⟨.deny, some 0⟩
                   fault := some ⟨k, r.addr, decide (r.op ≠ .read), h, false⟩
                   attention := KindSet.add u.attention .fault } := by
          simp only [State.sampled, State.addAttention, State.respond, State.updPort_updPort]
      _ = s.denied p r k h := State.updPort_congr (by simp only [hfault])
  | some f =>
    calc _ = s.updPort p fun u =>
          { u with response := some ⟨.deny, some 0⟩, fault := some { f with later := true } } := by
          simp only [State.sampled, State.respond, State.updPort_updPort]
      _ = s.denied p r k h := State.updPort_congr (by simp only [hfault])

theorem State.retry_sampled : (s.sampled p).retry p = s.turnedAway p := by
  simp only [State.sampled, State.retry, State.respond, State.updPort_updPort]
  rfl

/-- A port's own words changed by `f` and then answered DONE. -/
theorem State.respond_done_sampled (data : Option Word) (f : PortUnit → PortUnit)
    (hf : ∀ u, f { u with response := none } = { f u with response := none }) :
    ((s.sampled p).updPort p f).respond p .done data = s.servedDone p data f := by
  simp only [State.sampled, State.respond, State.updPort_updPort, hf]
  rfl

end Arrival

section ViewRequests

variable {s : State} {p : Port} {r : Request}

theorem State.viewRequest_misaligned (h : r.misaligned = true) :
    s.viewRequest p r = s.deny p .align r none := by
  simp only [State.viewRequest, h, if_true]

theorem State.viewRequest_held (halign : r.misaligned = false) (hhold : (s.port p).hold = true) :
    s.viewRequest p r = s.retry p := by
  simp only [State.viewRequest, halign, hhold, Bool.false_eq_true, if_false, if_true]

theorem State.viewRequest_orphaned (halign : r.misaligned = false) (hhold : (s.port p).hold = false)
    (horphan : (s.port p).access.isOrphaned = true) : s.viewRequest p r = s.retry p := by
  cases haccess : (s.port p).access with
  | orphaned a => simp only [State.viewRequest, halign, hhold, haccess, Bool.false_eq_true, if_false]
  | idle | stalled _ _ | issued _ => simp [haccess, Access.isOrphaned] at horphan

/-- The checks of R49 to R51 passed: the view and rights steps decide. -/
theorem State.viewRequest_idle (halign : r.misaligned = false) (hhold : (s.port p).hold = false)
    (hidle : (s.port p).access = .idle) : s.viewRequest p r = s.viewSteps p r := by
  simp only [State.viewRequest, halign, hhold, hidle, Bool.false_eq_true, if_false]

theorem State.viewSteps_noView (h : s.lookup p r.imageOffset = .noView) :
    s.viewSteps p r = s.deny p .miss r none := by
  simp only [State.viewSteps, h]

theorem State.viewSteps_revoked {v : ViewAnswer} (h : s.lookup p r.imageOffset = .revoked v) :
    s.viewSteps p r = s.deny p .revoked r (some v.handle) := by
  simp only [State.viewSteps, h]

theorem State.viewSteps_noRights {v : ViewAnswer} {o : Nat} {e : Extent} {b : Nat}
    (h : s.lookup p r.imageOffset = .active v o e b) (hread : v.rights = .read) (hwrite : r.op ≠ .read) :
    s.viewSteps p r = s.deny p .rights r (some v.handle) := by
  simp only [State.viewSteps, h, hread, hwrite, ne_eq, not_false_eq_true, and_self, if_true]

theorem State.viewSteps_admits {v : ViewAnswer} {o : Nat} {e : Extent} {b : Nat}
    (h : s.lookup p r.imageOffset = .active v o e b) (hrights : v.rights = .readWrite ∨ r.op = .read) :
    s.viewSteps p r = s.admitAccess p (recordOf r v.handle o e b) := by
  have hpass : ¬ (v.rights = .read ∧ r.op ≠ .read) := by
    rintro ⟨hread, hwrite⟩
    rcases hrights with hrw | hop
    · rw [hread] at hrw; cases hrw
    · exact hwrite hop
  simp only [State.viewSteps, h, hpass, if_false]

/-- Settles O7: the port's checks run in the order of R49, and the first that fails answers. -/
theorem viewRequestRefusedInOrder : Obligations.ViewRequestRefusedInOrder := by
  intro p r s harrive himage
  have hexec : exec (.viewSpaceRequest p r) s = .next ((s.sampled p).viewRequest p r) :=
    congrArg _ (State.takeRequest_view harrive himage)
  rw [hexec]
  refine ⟨fun halign => ?_, fun halign hhold => ?_, fun halign hhold horphan => ?_,
    fun halign hhold hidle => ?_⟩
  · rw [State.viewRequest_misaligned halign, State.deny_sampled]
  · rw [State.viewRequest_held halign (by simpa using hhold), State.retry_sampled]
  · rw [State.viewRequest_orphaned halign (by simpa using hhold) (by simpa using horphan),
      State.retry_sampled]
  · rw [State.viewRequest_idle halign (by simpa using hhold) (by simpa using hidle)]
    refine ⟨fun hmiss => ?_, fun v hrevoked => ?_, fun v o e b hactive hread hwrite => ?_⟩
    · rw [State.viewSteps_noView (by simpa using hmiss), State.deny_sampled]
    · rw [State.viewSteps_revoked (by simpa using hrevoked), State.deny_sampled]
    · rw [State.viewSteps_noRights (by simpa using hactive) hread hwrite, State.deny_sampled]

end ViewRequests

section Admissions

variable {s : State} {p : Port}

/-- The extent at the access's ordinal, the former target where there is none (R147, log 31). -/
theorem State.retranslate_eq_atOrdinal (tgt : Extent) (a : AccessRec) :
    s.retranslate tgt a = s.atOrdinal tgt a := by
  unfold State.retranslate State.atOrdinal
  cases (s.window a.handle.slot).extents[a.ordinal]? <;> rfl

/-- The engine's answer, with the port's own knowledge of a swap, in each phase of the engine (R142, R147). -/
theorem State.admittedAs_eq_placed (a : AccessRec) : s.admittedAs p a = s.placed p a := by
  unfold State.admittedAs State.placed
  cases hrle : s.rle with
  | idle | waiting | abandoning _ _ _ _ _ => rfl
  | copying src tgt ptr =>
    by_cases h : a.ext = src ∧ a.byteAddr / 64 = ptr
    · have hstall : (Rle.copying src tgt ptr).answer a.ext (blockOf a.byteAddr) = .stall .block := if_pos h
      simp only [hstall, if_pos h]
    · have hgo : (Rle.copying src tgt ptr).answer a.ext (blockOf a.byteAddr) = .go := if_neg h
      simp only [hgo, if_neg h]
  | cutover src tgt ptr aw cl bu swap =>
    simp only [Rle.answer]
    by_cases hsrc : a.ext = src
    · cases swap with
      | notRequested | requested => simp only [hsrc, if_true, Rle.targetTakenBy]
      | taken ack handed =>
        cases hp : handed.has p <;>
          simp [hsrc, Rle.targetTakenBy, hp, State.retranslate_eq_atOrdinal]
    · cases swap <;> simp [hsrc]

/-- The part once port `p`'s access is admitted, before the memory arbiter's turn: an abandonment still handed to
the port is taken first (log 18). -/
def State.admitted (s : State) (p : Port) (a : AccessRec) : State :=
  { s.updPort p fun u => { u with access := s.admittedAs p a } with abandonHanded := s.abandonHanded.erase p }

/-- A stalled access waits at its port, an issued one is presented to the arbiter (R47, R123). -/
theorem State.admitAccess_cases (a : AccessRec) :
    s.admitAccess p a = s.admitted p a ∨ s.admitAccess p a = (s.admitted p a).grantMemory := by
  unfold State.admitAccess State.admitted
  rcases s.admittedAs_cases p a with h | ⟨c, h⟩ | ⟨tgt, -, h⟩
  · exact .inr (by simp only [h]; rfl)
  · exact .inl (by simp only [h]; rfl)
  · exact .inr (by simp only [h]; rfl)

/-- Of the ports' records an admission changes the access of its own port alone (R53). -/
theorem State.admitAccess_ports (a : AccessRec) :
    (s.admitAccess p a).ports = Tab.upd s.ports p fun u => { u with access := s.admittedAs p a } := by
  rcases s.admitAccess_cases (p := p) a with h | h <;> rw [h]
  · rfl
  · rw [State.grantMemory_ports]; rfl

theorem State.port_admitAccess_self (a : AccessRec) :
    (s.admitAccess p a).port p = { s.port p with access := s.admittedAs p a } := by
  rw [State.port, State.admitAccess_ports, Tab.get_upd_self]
  rfl

theorem State.port_admitAccess_of_ne {q : Port} (hq : q ≠ p) (a : AccessRec) :
    (s.admitAccess p a).port q = s.port q := by
  rw [State.port, State.admitAccess_ports, Tab.get_upd_of_ne _ hq]
  rfl

/-- An admission touches no window, list, engine, account or word of the bank. -/
theorem State.admitAccess_frame (a : AccessRec) :
    (s.admitAccess p a).windows = s.windows ∧ (s.admitAccess p a).extents = s.extents ∧
      (s.admitAccess p a).freeList = s.freeList ∧ (s.admitAccess p a).wipeList = s.wipeList ∧
      (s.admitAccess p a).relocList = s.relocList ∧ (s.admitAccess p a).rle = s.rle ∧
      (s.admitAccess p a).wpe = s.wpe ∧ (s.admitAccess p a).clearRec = s.clearRec ∧
      (s.admitAccess p a).kept = s.kept := by
  rcases s.admitAccess_cases (p := p) a with h | h <;> rw [h]
  · exact ⟨rfl, rfl, rfl, rfl, rfl, rfl, rfl, rfl, rfl⟩
  · exact ⟨State.grantMemory_windows _, State.grantMemory_extents _, State.grantMemory_freeList _,
      State.grantMemory_wipeList _, State.grantMemory_relocList _, State.grantMemory_rle _,
      State.grantMemory_wpe _, State.grantMemory_clearRec _, State.kept_grantMemory _⟩

/-- Settles O8: a request that passes every check is admitted where the engine's answer places it. -/
theorem viewRequestAdmitted : Obligations.ViewRequestAdmitted := by
  intro p r s v o e b harrive himage halign hhold hidle hlookup hrights
  have hadmit : s.takeRequest p r = (s.sampled p).admitAccess p (recordOf r v.handle o e b) := by
    rw [State.takeRequest_view harrive himage, State.viewRequest_idle halign (by simpa using hhold)
      (by simpa using hidle), State.viewSteps_admits (by simpa using hlookup) hrights]
  have hport := State.port_admitAccess_self (s := s.sampled p) (p := p) (recordOf r v.handle o e b)
  rw [State.port_sampled_self, State.admittedAs_sampled, State.admittedAs_eq_placed] at hport
  refine ⟨_, congrArg Host.Outcome.next hadmit, congrArg PortUnit.access hport, ?_, fun q hq => ?_,
    State.admitAccess_frame _⟩
  · rw [hport]
  · rw [State.port_admitAccess_of_ne hq, State.port_sampled_of_ne hq]

end Admissions

section ControlRequests

variable {s : State} {p : Port} {r : Request}

theorem State.controlRequest_outside (h : 0x3F < r.imageOffset) :
    s.controlRequest p r = s.deny p .aperture r none := by
  simp only [State.controlRequest, h, if_true]

theorem State.controlRequest_misaligned (hin : r.imageOffset ≤ 0x3F) (halign : r.alignedWord = false) :
    s.controlRequest p r = s.deny p .align r none := by
  simp only [State.controlRequest, Nat.not_lt.2 hin, if_false, halign, Bool.not_false, if_true]

theorem State.controlRequest_write {v : Word} (hin : r.imageOffset ≤ 0x3F) (halign : r.alignedWord = true)
    (hop : r.op = .write v) : s.controlRequest p r = s.controlStore p r.imageOffset v := by
  simp only [State.controlRequest, Nat.not_lt.2 hin, if_false, halign, Bool.not_true, Bool.false_eq_true, hop]

/-- What the bus shows of a refusal, whatever the fault record held (R62, R174). -/
theorem State.responseLines_denied (k : FaultKind) (h : Option Handle) :
    (s.denied p r k h).responseLines p = some (0b10, some 0) := by
  have hport : ((s.denied p r k h).port p).response = some ⟨.deny, some 0⟩ := by
    simp only [State.port, State.denied, Tab.get_upd_self]
    split <;> rfl
  simp only [State.responseLines, hport, Option.map_some, BusCode.rsp]

/-- Settles O10: aperture before alignment, and the codes read off the bus's tables. -/
theorem controlImageRefusal : Obligations.ControlImageRefusal := by
  intro p r s harrive himage
  have hexec : exec (.controlImageRefused p r) s = .next ((s.sampled p).controlRequest p r) :=
    congrArg _ (State.takeRequest_control harrive himage)
  rw [hexec]
  refine ⟨fun hout => ?_, fun hin halign => ?_, State.responseLines_denied _ _, ⟨rfl, rfl, rfl, rfl⟩,
    fun sz a d => ⟨rfl, rfl⟩⟩
  · rw [State.controlRequest_outside hout, State.deny_sampled]
  · rw [State.controlRequest_misaligned hin halign, State.deny_sampled]

/-- Offsets of the control image lie in image 15, at the offset itself (R12, R176). -/
theorem Request.addr_controlWrite {k : Nat} (hk : k ≤ 0x3F) (v : Word) :
    (Request.controlWrite k v).addr.toNat = 0xF0000000 + k := by
  simp only [Request.controlWrite, BitVec.toNat_ofNat]
  omega

theorem Request.image_controlWrite {k : Nat} (hk : k ≤ 0x3F) (v : Word) :
    (Request.controlWrite k v).image = 15 := by
  rw [Request.image, Request.addr_controlWrite hk]
  omega

theorem Request.imageOffset_controlWrite {k : Nat} (hk : k ≤ 0x3F) (v : Word) :
    (Request.controlWrite k v).imageOffset = k := by
  rw [Request.imageOffset, Request.addr_controlWrite hk]
  omega

theorem Request.alignedWord_controlWrite {k : Nat} (hk : k ≤ 0x3F) (hmod : k % 4 = 0) (v : Word) :
    (Request.controlWrite k v).alignedWord = true := by
  have haddr : (Request.controlWrite k v).addr.toNat % 4 = 0 := by
    rw [Request.addr_controlWrite hk]
    omega
  rw [Request.alignedWord, haddr]
  rfl

/-- A word write to the control image reaches its word (R49, R50, R65). -/
theorem State.takeRequest_controlWrite (harrive : s.canArrive p = true) {k : Nat} (hk : k ≤ 0x3F)
    (hmod : k % 4 = 0) (v : Word) :
    s.takeRequest p (Request.controlWrite k v) = (s.sampled p).controlStore p k v := by
  have hoff := Request.imageOffset_controlWrite hk v
  rw [State.takeRequest_control harrive (Request.image_controlWrite hk v),
    State.controlRequest_write (hoff.le.trans hk) (Request.alignedWord_controlWrite hk hmod v) rfl, hoff]

/-- Every position of an attention set is a kind's (R75, R176). -/
theorem KindSet.ne_zero_iff (x : KindSet) : x ≠ 0 ↔ ∃ k : Kind, KindSet.has x k = true := by
  constructor
  · intro hx
    by_contra hnone
    refine hx (BitVec.eq_of_getLsbD_eq fun i hi => ?_)
    have habsent : ∀ k : Kind, x.getLsbD k.pos = false := fun k =>
      Bool.eq_false_iff.2 fun hk => hnone ⟨k, hk⟩
    obtain ⟨k, rfl⟩ : ∃ k : Kind, k.pos = i := by
      interval_cases i
      exacts [⟨.offers, rfl⟩, ⟨.views, rfl⟩, ⟨.grants, rfl⟩, ⟨.fault, rfl⟩, ⟨.hold, rfl⟩,
        ⟨.drained, rfl⟩, ⟨.done, rfl⟩, ⟨.moved, rfl⟩, ⟨.quarantined, rfl⟩]
    simpa using habsent k
  · rintro ⟨k, hk⟩ rfl
    simp [KindSet.has] at hk

theorem State.notice_iff (q : Port) : s.notice q = true ↔ s.resetn = false ∧
    ∃ k : Kind, KindSet.has (s.port q).attention k = true ∧ KindSet.has (s.port q).mask k = true := by
  have hshared : ∀ k, KindSet.has ((s.port q).attention &&& (s.port q).mask) k =
      (KindSet.has (s.port q).attention k && KindSet.has (s.port q).mask k) :=
    fun k => BitVec.getLsbD_and
  simp only [State.notice, Bool.and_eq_true, Bool.not_eq_true', decide_eq_true_eq, KindSet.ne_zero_iff, hshared]

/-- Settles O11: each of the three writes reaches its word of the control image, and NOTICE is the meet of the
attention set and the mask. -/
theorem portWordWrites : Obligations.PortWordWrites := by
  intro p v s harrive
  have hstore : ∀ k ≤ 0x3F, k % 4 = 0 →
      s.takeRequest p (Request.controlWrite k v) = (s.sampled p).controlStore p k v :=
    fun k hk hmod => State.takeRequest_controlWrite harrive hk hmod v
  refine ⟨congrArg Host.Outcome.next ?_, congrArg Host.Outcome.next ?_, congrArg Host.Outcome.next ?_,
    fun x q => State.notice_iff q⟩
  · rw [hstore 0x24 (by decide) (by decide)]
    exact State.respond_done_sampled none _ fun _ => rfl
  · rw [hstore 0x28 (by decide) (by decide)]
    exact State.respond_done_sampled none _ fun _ => rfl
  · rw [hstore 0x2C (by decide) (by decide)]
    exact State.respond_done_sampled none _ fun _ => rfl

end ControlRequests

end Sys2Proof.Machine
end

section
/-!
What a port takes along the Relocation Engine's path: the swap, with its acknowledgement, and an abandonment (R55,
R146, R147, R149).
-/

namespace Sys2Proof.Machine

section SwapTakes

variable {s : State} {p : Port}

/-- At a port's take a CUTOVER stall alone is issued (R55). -/
theorem Access.releaseCutover_eq_afterCutover (f : AccessRec → AccessRec) (x : Access) :
    x.releaseCutover f = x.afterCutover f := by
  cases x with
  | stalled c a => cases c <;> rfl
  | idle | issued _ | orphaned _ => rfl

variable {src tgt : Extent} {ptr : Nat} {aw cl bu ack hd : PortSet}

theorem execPortSwapTake_handed (hn : s.resetn = false) (hrle : s.rle = .cutover src tgt ptr aw cl bu (.taken ack hd))
    (hp : hd.has p = true) :
    execPortSwapTake p s = .next (State.grantMemory { s with
      rle := .cutover src tgt ptr aw cl bu (.taken ack (hd.erase p))
      ports := Tab.upd s.ports p fun u => { u with access := u.access.afterCutover (s.atOrdinal tgt) } }) := by
  have hatOrdinal : s.retranslate tgt = s.atOrdinal tgt := funext (State.retranslate_eq_atOrdinal tgt)
  calc execPortSwapTake p s
      = .next (State.grantMemory
          { s.updPort p fun u => { u with access := u.access.releaseCutover (s.retranslate tgt) } with
            rle := .cutover src tgt ptr aw cl bu (.taken ack (hd.erase p)) }) := by
        simp only [execPortSwapTake, hn, hrle, hp, if_true]
    _ = _ := by
        simp only [hatOrdinal, Access.releaseCutover_eq_afterCutover]
        rfl

/-- R146: a port acknowledges what it has taken; others are still to acknowledge. -/
theorem execSwapAcknowledge_more (hn : s.resetn = false)
    (hrle : s.rle = .cutover src tgt ptr aw cl bu (.taken ack hd)) (hack : ack.has p = true)
    (htook : hd.has p = false) (hmore : ack.erase p ≠ PortSet.none) :
    execSwapAcknowledge p s =
      .next { s with rle := .cutover src tgt ptr aw cl bu (.taken (ack.erase p) hd) } := by
  simp [execSwapAcknowledge, hn, hrle, hack, htook, PortSet.isEmpty, hmore]

/-- R139, R146: the last acknowledgement ends the relocation. -/
theorem execSwapAcknowledge_last (hn : s.resetn = false)
    (hrle : s.rle = .cutover src tgt ptr aw cl bu (.taken ack hd)) (hack : ack.has p = true)
    (htook : hd.has p = false) (hlast : ack.erase p = PortSet.none) :
    execSwapAcknowledge p s = .next (State.settle { s with rle := .idle }) := by
  simp [execSwapAcknowledge, hn, hrle, hack, htook, PortSet.isEmpty, hlast]

theorem execAbandonmentTake_handed (hn : s.resetn = false) (hp : s.abandonHanded.has p = true) :
    execAbandonmentTake p s = .next (State.grantMemory { s with
      abandonHanded := s.abandonHanded.erase p
      ports := Tab.upd s.ports p fun u => { u with access := u.access.afterCutover id } }) := by
  calc execAbandonmentTake p s
      = .next (State.grantMemory
          { s.updPort p fun u => { u with access := u.access.releaseCutover id } with
            abandonHanded := s.abandonHanded.erase p }) := by
        simp only [execAbandonmentTake, hn, hp, Bool.not_false, Bool.and_self, if_true]
    _ = _ := by
        simp only [Access.releaseCutover_eq_afterCutover]
        rfl

/-- Settles O55: the three takes along the engine's path to a port, each by its own rule. -/
theorem portsTakeSwapAndAbandonment : Obligations.PortsTakeSwapAndAbandonment := by
  intro s p hn
  refine ⟨fun src tgt ptr aw cl bu ack hd hrle => ⟨fun hhanded => ?_, fun hack htook => ⟨fun hmore => ?_,
    fun hlast => ?_⟩⟩, fun hhanded => ?_⟩
  · exact execPortSwapTake_handed hn hrle hhanded
  · exact execSwapAcknowledge_more hn hrle hack htook hmore
  · exact execSwapAcknowledge_last hn hrle hack htook hlast
  · exact execAbandonmentTake_handed hn hhanded

end SwapTakes

end Sys2Proof.Machine
end

section
/-!
The fields of a word (R176, R177): what a field holds of a word packed from fields that share no bit, and that every
bit outside them reads 0.
-/

namespace Sys2Proof.Machine

section Fields

/-- Two fields, each a low bit, a width and a value, share no bit. -/
abbrev FieldsApart (f g : Nat × Nat × Nat) : Prop := f.1 + f.2.1 ≤ g.1 ∨ g.1 + g.2.1 ≤ f.1

/-- A layout of a word: fields that end within its 32 bits, no two with a bit in common. -/
def Layout (l : List (Nat × Nat × Nat)) : Prop := (∀ f ∈ l, f.1 + f.2.1 ≤ 32) ∧ l.Pairwise FieldsApart

/-- The bit that a field, standing in its word, has at a position. -/
def fieldBit (f : Nat × Nat × Nat) (i : Nat) : Bool :=
  decide (f.1 ≤ i) && decide (i - f.1 < f.2.1) && f.2.2.testBit (i - f.1)

variable {l : List (Nat × Nat × Nat)}

theorem getLsbD_ofNat_field (f : Nat × Nat × Nat) (i : Nat) :
    (BitVec.ofNat 32 (f.2.2 % 2 ^ f.2.1 * 2 ^ f.1)).getLsbD i = (decide (i < 32) && fieldBit f i) := by
  rw [BitVec.getLsbD_ofNat, Nat.testBit_mul_two_pow, Nat.testBit_mod_two_pow, fieldBit, Bool.and_assoc]

theorem packFields_cons (f : Nat × Nat × Nat) (l : List (Nat × Nat × Nat)) :
    packFields (f :: l) = BitVec.ofNat 32 (f.2.2 % 2 ^ f.2.1 * 2 ^ f.1) + packFields l := by
  simp only [packFields, List.map_cons, List.sum_cons, BitVec.ofNat_add]

theorem fieldBit_of_apart {f g : Nat × Nat × Nat} (h : FieldsApart f g) {i : Nat} (hf : fieldBit f i = true) :
    fieldBit g i = false := by
  simp only [fieldBit, Bool.and_eq_true, decide_eq_true_eq] at hf
  have hout : ¬ (g.1 ≤ i ∧ i - g.1 < g.2.1) := by
    unfold FieldsApart at h
    omega
  simpa [fieldBit] using fun h1 h2 => absurd ⟨h1, h2⟩ hout

/-- Fields that share no bit add without a carry. -/
theorem getLsbD_packFields (h : l.Pairwise FieldsApart) (i : Nat) :
    (packFields l).getLsbD i = (decide (i < 32) && l.any fun f => fieldBit f i) := by
  induction l generalizing i with
  | nil => simp [packFields]
  | cons f l ih =>
    obtain ⟨hf, hl⟩ := List.pairwise_cons.1 h
    have hcarry : BitVec.ofNat 32 (f.2.2 % 2 ^ f.2.1 * 2 ^ f.1) &&& packFields l = 0#32 := by
      refine BitVec.eq_of_getLsbD_eq fun j hj => ?_
      rw [BitVec.getLsbD_and, getLsbD_ofNat_field, ih hl]
      cases hbit : fieldBit f j with
      | false => simp
      | true =>
        have hnone : (l.any fun g => fieldBit g j) = false :=
          List.any_eq_false.2 fun g hg => by simp [fieldBit_of_apart (hf g hg) hbit]
        simp [hnone]
    rw [packFields_cons, BitVec.add_eq_or_of_and_eq_zero _ _ hcarry, BitVec.getLsbD_or, getLsbD_ofNat_field, ih hl,
      List.any_cons, Bool.and_or_distrib_left]

/-- Within a field no other field has a bit. -/
theorem any_fieldBit (h : l.Pairwise FieldsApart) {f : Nat × Nat × Nat} (hf : f ∈ l) {i : Nat} (hlo : f.1 ≤ i)
    (hhi : i - f.1 < f.2.1) : (l.any fun g => fieldBit g i) = f.2.2.testBit (i - f.1) := by
  have : Std.Symm FieldsApart := ⟨fun _ _ h => h.symm⟩
  have hown : fieldBit f i = f.2.2.testBit (i - f.1) := by simp [fieldBit, hlo, hhi]
  rw [← hown, Bool.eq_iff_iff, List.any_eq_true]
  refine ⟨fun ⟨g, hg, hbit⟩ => ?_, fun hbit => ⟨f, hf, hbit⟩⟩
  by_cases hfg : g = f
  · exact hfg ▸ hbit
  · have hmeet : ¬ FieldsApart f g := by
      simp only [fieldBit, Bool.and_eq_true, decide_eq_true_eq] at hbit
      omega
    exact absurd (h.forall hf hg (Ne.symm hfg)) hmeet

theorem testBit_field (w : Word) (lo width i : Nat) :
    (field w lo width).testBit i = (decide (i < width) && w.getLsbD (lo + i)) := by
  rw [field, Nat.testBit_mod_two_pow, Nat.testBit_div_two_pow, BitVec.testBit_toNat, Nat.add_comm]

/-- A field of a packed word holds its value, taken modulo its width (log 32). -/
theorem field_packFields (h : Layout l) {lo width v : Nat} (hf : (lo, width, v) ∈ l) :
    field (packFields l) lo width = v % 2 ^ width := by
  obtain ⟨hend, hapart⟩ := h
  have hfit : lo + width ≤ 32 := hend _ hf
  refine Nat.eq_of_testBit_eq fun i => ?_
  rw [testBit_field, getLsbD_packFields hapart, Nat.testBit_mod_two_pow]
  by_cases hi : i < width
  · have hpos : lo + i < 32 := by omega
    rw [any_fieldBit hapart hf (Nat.le_add_right lo i) (by simpa using hi)]
    simp [hpos]
  · simp [hi]

/-- A field of a packed word whose value fits holds the value. -/
theorem field_packFields_of_lt (h : Layout l) {lo width v : Nat} (hf : (lo, width, v) ∈ l) (hv : v < 2 ^ width) :
    field (packFields l) lo width = v := by
  rw [field_packFields h hf, Nat.mod_eq_of_lt hv]

/-- Outside its fields a packed word reads 0. -/
theorem zeroOutside_packFields (h : Layout l) : ZeroOutside (packFields l) (l.map fun f => (f.1, f.2.1)) := by
  intro i hi
  have hnone : (l.any fun f => fieldBit f i) = false := by
    refine List.any_eq_false.2 fun f hf => ?_
    have hout : i < f.1 ∨ f.1 + f.2.1 ≤ i := hi _ (List.mem_map_of_mem hf)
    simp only [fieldBit, Bool.and_eq_true, decide_eq_true_eq]
    omega
  rw [getLsbD_packFields h.2, hnone, Bool.and_false]

theorem zeroOutside_zero (fields : List (Nat × Nat)) : ZeroOutside 0 fields := fun _ _ => BitVec.getLsbD_zero

/-- A field of one bit is that bit. -/
theorem field_one (w : Word) (i : Nat) : field w i 1 = (w.getLsbD i).toNat := by
  rw [field, pow_one, ← Nat.toNat_testBit, BitVec.testBit_toNat]

end Fields

end Sys2Proof.Machine
end

section
/-!
The control image (R63 to R66, R74, R77, R176): a served request reaches one word, and what a write and a read of
each word answer.
-/

namespace Sys2Proof.Machine

section ControlWords

variable {s : State} {p : Port} {r : Request}

theorem Request.servedControl_iff (r : Request) :
    r.servedControl = true ↔ r.image = 15 ∧ r.imageOffset ≤ 0x3F ∧ r.alignedWord = true := by
  simp only [Request.servedControl, Bool.and_eq_true, decide_eq_true_eq, and_assoc]

/-- A served write reaches its control word (R49, R50, R65). -/
theorem State.takeRequest_servedWrite (harrive : s.canArrive p = true) (hserved : r.servedControl = true) {v : Word}
    (hop : r.op = .write v) : s.takeRequest p r = (s.sampled p).controlStore p r.imageOffset v := by
  obtain ⟨himage, hin, halign⟩ := (Request.servedControl_iff r).1 hserved
  rw [State.takeRequest_control harrive himage, State.controlRequest_write hin halign hop]

theorem State.respond_sampled (data : Option Word) :
    (s.sampled p).respond p .done data = s.servedDone p data id := by
  simp only [State.sampled, State.respond, State.updPort_updPort]
  rfl

/-- A served read is answered with the word as it stands (R65, log 21). -/
theorem State.takeRequest_servedRead (harrive : s.canArrive p = true) (hserved : r.servedControl = true)
    (hop : r.op = .read) :
    s.takeRequest p r = s.servedDone p (some ((s.port p).controlRead r.imageOffset)) id := by
  obtain ⟨himage, hin, halign⟩ := (Request.servedControl_iff r).1 hserved
  have hread : (s.sampled p).controlRequest p r =
      (s.sampled p).respond p .done (some (((s.sampled p).port p).controlRead r.imageOffset)) := by
    simp only [State.controlRequest, Nat.not_lt.2 hin, if_false, halign, Bool.not_true, Bool.false_eq_true, hop]
  rw [State.takeRequest_control harrive himage, hread, State.respond_sampled, State.port_sampled_self]
  rfl

theorem Slot.busy_iff (x : Slot) : x.Busy ↔ x.state.busy = true := by
  unfold Slot.Busy
  cases x.state <;> simp [SlotState.busy]

theorem State.busy_sampled (h : (s.port p).slot.Busy) : ((s.sampled p).port p).slot.state.busy = true := by
  rw [State.port_sampled_self]
  exact (Slot.busy_iff _).1 h

theorem State.not_busy_sampled (h : ¬ (s.port p).slot.Busy) : ((s.sampled p).port p).slot.state.busy = false := by
  rw [Slot.busy_iff, Bool.not_eq_true] at h
  rw [State.port_sampled_self]
  exact h

theorem State.servedDone_congr {data : Option Word} {f g : PortUnit → PortUnit} (h : f (s.port p) = g (s.port p)) :
    s.servedDone p data f = s.servedDone p data g :=
  State.updPort_congr (by rw [h])

section Writes

variable {v : Word}

/-- While the slot is BUSY its word and the argument words take nothing (R65, R66). -/
theorem State.controlStore_busy (hbusy : (s.port p).slot.Busy) {offset : Nat} (hoff : offset / 4 ≤ 4) :
    (s.sampled p).controlStore p offset v = s.turnedAway p := by
  have hretry : (s.sampled p).controlStore p offset v = (s.sampled p).retry p := by
    unfold State.controlStore
    interval_cases offset / 4 <;> simp only [State.busy_sampled hbusy, if_true]
  rw [hretry, State.retry_sampled]

/-- An issue (R66). -/
theorem State.controlStore_issue (hbusy : ¬ (s.port p).slot.Busy) :
    (s.sampled p).controlStore p 0 v = s.servedDone p none fun u => { u with slot := u.slot.issue v } := by
  simp only [State.controlStore, Nat.zero_div, State.not_busy_sampled hbusy, Bool.false_eq_true, if_false]
  exact State.respond_done_sampled none _ fun _ => rfl

/-- A write of an argument word (R65). -/
theorem State.controlStore_arg (hbusy : ¬ (s.port p).slot.Busy) (i : Fin 4) :
    (s.sampled p).controlStore p (4 + 4 * i.val) v = s.servedDone p none fun u =>
      { u with slot := { u.slot with args := u.slot.args.setArg (i.val + 1) v } } := by
  have hword : (4 + 4 * i.val) / 4 = i.val + 1 := by omega
  rw [← State.respond_done_sampled none _ fun _ => rfl]
  unfold State.controlStore
  rw [hword]
  fin_cases i <;> simp only [State.not_busy_sampled hbusy, Bool.false_eq_true, if_false]

/-- The result words, fault word 1 and the unused offsets take no value (R65, R176). -/
theorem State.controlStore_fixed {offset : Nat} (hoff : 0x14 ≤ offset ∧ offset ≤ 0x20 ∨ 0x30 ≤ offset) :
    (s.sampled p).controlStore p offset v = s.servedDone p none id := by
  have hword : 5 ≤ offset / 4 ∧ offset / 4 ≤ 8 ∨ 12 ≤ offset / 4 := by omega
  rw [← State.respond_sampled]
  unfold State.controlStore
  rcases hword with ⟨hlo, hhi⟩ | hlo
  · interval_cases offset / 4 <;> rfl
  · obtain ⟨n, hn⟩ := Nat.exists_eq_add_of_le' hlo
    rw [hn]
    rfl

/-- An argument word written, the others as they were. -/
theorem Words4.get_setArg (a : Words4) (i j : Fin 4) (v : Word) :
    (a.setArg (i.val + 1) v).get j = if j = i then v else a.get j := by
  fin_cases i <;> fin_cases j <;> rfl

/-- Settles O14: a write of the slot word is an issue in IDLE and DONE and turned away while BUSY. -/
theorem issueMakesCommandWait : Obligations.IssueMakesCommandWait := by
  intro p v s harrive
  have hexec : exec (.commandIssue p v) s = .next ((s.sampled p).controlStore p 0 v) :=
    congrArg _ (State.takeRequest_controlWrite harrive (by decide) (by decide) v)
  rw [hexec]
  refine ⟨fun hidle => congrArg _ ?_, fun hbusy => congrArg _ (State.controlStore_busy hbusy (by decide))⟩
  exact State.controlStore_issue hidle

/-- Settles O12: the argument words, the words that take no value, and the slot word while BUSY. -/
theorem controlWordWriteEffects : Obligations.ControlWordWriteEffects := by
  intro p r v s harrive hserved hop
  have hexec : exec (.controlWordWrite p r) s = .next ((s.sampled p).controlStore p r.imageOffset v) :=
    congrArg _ (State.takeRequest_servedWrite harrive hserved hop)
  rw [hexec]
  refine ⟨fun i hoff => ⟨fun hbusy => congrArg _ ?_, fun hidle => ?_⟩, fun hoff => congrArg _ ?_,
    fun hoff hbusy => congrArg _ ?_⟩
  · exact State.controlStore_busy hbusy (by omega)
  · refine ⟨(s.port p).slot.args.setArg (i.val + 1) v, ?_, fun j hj => ?_, congrArg _ ?_⟩
    · rw [Words4.get_setArg, if_pos rfl]
    · rw [Words4.get_setArg, if_neg hj]
    · rw [hoff, State.controlStore_arg hidle]
      exact State.servedDone_congr rfl
  · exact State.controlStore_fixed hoff
  · exact State.controlStore_busy hbusy (by omega)

end Writes

section Reads

variable (u : PortUnit)

theorem PortUnit.controlRead_arg (i : Fin 4) : u.controlRead (4 + 4 * i.val) = u.slot.args.get i := by
  fin_cases i <;> rfl

theorem PortUnit.controlRead_res (i : Fin 4) : u.controlRead (0x14 + 4 * i.val) = u.slot.res.get i := by
  fin_cases i <;> rfl

theorem PortUnit.controlRead_unused {offset : Nat} (h : 0x34 ≤ offset) : u.controlRead offset = 0 := by
  have hword : 13 ≤ offset / 4 := by omega
  obtain ⟨n, hn⟩ := Nat.exists_eq_add_of_le' hword
  rw [PortUnit.controlRead, hn]
  rfl

theorem SlotState.code_eq_slotStateNumber (x : SlotState) : x.code = slotStateNumber x := by cases x <;> rfl

theorem Status.code_eq_statusNumber (x : Status) : x.code = statusNumber x := by cases x <;> rfl

theorem FaultKind.code_eq_faultNumber (x : FaultKind) : x.code = faultNumber x := by cases x <;> rfl

theorem Kind.pos_eq_kindBit (k : Kind) : k.pos = kindBit k := by cases k <;> rfl

theorem Slot.layout_word (x : Slot) :
    Layout [(0, 8, x.code.toNat), (8, 2, x.state.code), (16, 4, x.state.statusCode)] := by
  simp [Layout, FieldsApart]

/-- The fields of the slot word (R176). -/
theorem Slot.field_word (x : Slot) :
    field x.word 0 8 = x.code.toNat ∧ field x.word 8 2 = x.state.code ∧ field x.word 16 4 = x.state.statusCode := by
  have hstate : x.state.code < 2 ^ 2 := by
    cases x.state with
    | idle | waiting | inProgress | done _ => simp [SlotState.code]
  have hstatus : x.state.statusCode < 2 ^ 4 := by
    cases x.state with
    | done st => cases st <;> decide
    | idle | waiting | inProgress => decide
  exact ⟨field_packFields_of_lt x.layout_word (by simp) x.code.isLt,
    field_packFields_of_lt x.layout_word (by simp) hstate, field_packFields_of_lt x.layout_word (by simp) hstatus⟩

/-- The bits of an attention or notice word (R176). -/
theorem KindSet.word_bits (x : KindSet) : (x.setWidth 32).toNat < 512 ∧
    ∀ k, field (x.setWidth 32) (kindBit k) 1 = (KindSet.has x k).toNat := by
  refine ⟨by rw [BitVec.toNat_setWidth]; omega, fun k => ?_⟩
  have hpos : k.pos < 32 := by cases k <;> decide
  rw [field_one, ← k.pos_eq_kindBit, BitVec.getLsbD_setWidth, KindSet.has]
  simp [hpos]

theorem Handle.word_toNat (h : Handle) : h.word.toNat = h.gen.toNat * 256 + h.slot.val := by
  rw [Handle.word, BitVec.toNat_ofNat]
  omega

theorem FaultRecord.layout_word (f : FaultRecord) :
    Layout [(0, 16, (f.handle.map fun h => h.word.toNat).getD 0), (16, 3, f.kind.code), (20, 1, f.isWrite.toNat),
      (31, 1, f.later.toNat)] := by
  simp [Layout, FieldsApart]

/-- The fields of fault word 0 of a filled record (R176). -/
theorem FaultRecord.field_word (f : FaultRecord) :
    field (faultWord0 (some f)) 16 3 = f.kind.code ∧ field (faultWord0 (some f)) 20 1 = f.isWrite.toNat ∧
      field (faultWord0 (some f)) 31 1 = f.later.toNat ∧
      field (faultWord0 (some f)) 0 16 = (f.handle.map fun h => h.word.toNat).getD 0 := by
  have hkind : f.kind.code < 2 ^ 3 := by cases f.kind <;> decide
  have hfit : (f.handle.map fun h => h.word.toNat).getD 0 < 2 ^ 16 := by
    cases f.handle with
    | none => decide
    | some h =>
      show h.word.toNat < 2 ^ 16
      rw [h.word_toNat]
      omega
  exact ⟨field_packFields_of_lt f.layout_word (by simp) hkind,
    field_packFields_of_lt f.layout_word (by simp) f.isWrite.toNat_lt,
    field_packFields_of_lt f.layout_word (by simp) f.later.toNat_lt,
    field_packFields_of_lt f.layout_word (by simp) hfit⟩

theorem zeroOutside_faultWord0 (f : Option FaultRecord) :
    ZeroOutside (faultWord0 f) [(0, 16), (16, 3), (20, 1), (31, 1)] := by
  cases f with
  | none => exact zeroOutside_zero _
  | some f => exact zeroOutside_packFields f.layout_word

/-- Settles O13: each control word as the port's record spells it. -/
theorem controlWordReads : Obligations.ControlWordReads := by
  intro p r s harrive hserved hop
  refine ⟨_, congrArg _ (State.takeRequest_servedRead harrive hserved hop), fun hoff => ?_, fun hoff => ?_,
    fun i hoff => ?_, fun i hoff => ?_, fun hoff => ?_, fun hoff => ?_, fun hnone hoff => ?_, fun f hf hoff => ?_,
    fun hoff => ?_, fun f hf hoff => ?_, fun hoff => ?_⟩
  · rw [hoff]
    obtain ⟨hcode, hstate, hstatus⟩ := (s.port p).slot.field_word
    refine ⟨hcode, hstate.trans (SlotState.code_eq_slotStateNumber _), hstatus.trans ?_⟩
    cases (s.port p).slot.state with
    | done st => exact st.code_eq_statusNumber
    | idle | waiting | inProgress => rfl
  · rw [hoff]
    exact zeroOutside_packFields (s.port p).slot.layout_word
  · rw [hoff, PortUnit.controlRead_arg]
  · rw [hoff, PortUnit.controlRead_res]
  · rw [hoff]
    exact KindSet.word_bits _
  · rw [hoff]
    exact KindSet.word_bits _
  · rcases hoff with hoff | hoff
    · rw [hoff]
      exact congrArg faultWord0 hnone
    · rw [hoff]
      exact congrArg faultWord1 hnone
  · have hword : (s.port p).controlRead 0x2C = faultWord0 (some f) := congrArg faultWord0 hf
    obtain ⟨hkind, hwrite, hlater, hhandle⟩ := f.field_word
    rw [hoff, hword]
    refine ⟨hkind.trans f.kind.code_eq_faultNumber, hwrite, hlater, hhandle.trans ?_⟩
    cases f.handle with
    | none => rfl
    | some h => exact h.word_toNat
  · rw [hoff]
    exact zeroOutside_faultWord0 _
  · rw [hoff]
    exact congrArg faultWord1 hf
  · exact PortUnit.controlRead_unused _ hoff

end Reads

end ControlWords

end Sys2Proof.Machine
end

section
/-!
Commands taken at the Window Directory (R66 to R73): what a due command answers, and what a refusal leaves.
-/

namespace Sys2Proof.Machine

section Answers

variable {s t : State} {p : Port} {c : Instr} {isCode : BitVec 8 → Bool} {body : State → Verdict} {code : BitVec 8}
  {st : Status}

/-- What a due command of port `p` answers, by the verdict of its own rule (R67 to R69, R73). -/
def State.answerOf (s : State) (p : Port) : Verdict → Result
  | .refuse st => .next (s.answered p st Words4.zero)
  | .finished t res => .next (t.finish p .ok res)
  | .inProgress t => .next (t.slotInProgress p)

/-- The finish of a command at its take (R67, R68). -/
theorem State.finish_served (s : State) (p : Port) (st : Status) (res : Words4) :
    (s.served p).finish p st res = s.answered p st res := by
  rw [State.finish, State.addAttention, State.updPort_updPort]
  rfl

theorem exec_of_due (hc : takenCommand c = some (p, isCode, body)) (hcode : isCode code = true) (hdue : s.Due p code) :
    exec c s = s.answerOf p (body (s.served p)) := by
  obtain ⟨hn, hcaller, rfl⟩ := hdue
  rw [exec_of_taken hc, State.takeCommand_due s p isCode body hn hcaller hcode]
  cases body (s.served p) with
  | refuse st => exact congrArg _ (s.finish_served p st _)
  | finished t res => rfl
  | inProgress t => rfl

theorem exec_of_refuse (hc : takenCommand c = some (p, isCode, body)) (hcode : isCode code = true)
    (hdue : s.Due p code) (hbody : body (s.served p) = .refuse st) :
    exec c s = .next (s.answered p st Words4.zero) := by
  rw [exec_of_due hc hcode hdue, hbody, State.answerOf]

/-- A finished command shows OK and one in progress no status, so any other status is that of a refusal (R68, R69,
R73). -/
theorem eq_answered_of_answerOf {v : Verdict} (ht : s.answerOf p v = .next t)
    (hst : (t.port p).slot.state = .done st) (hne : st ≠ .ok) : t = s.answered p st Words4.zero := by
  cases v with
  | refuse st' =>
    cases ht
    rw [← State.finish_served, State.port_finish, if_pos rfl] at hst
    cases hst
    rfl
  | finished u res =>
    cases ht
    rw [State.port_finish, if_pos rfl] at hst
    cases hst
    exact absurd rfl hne
  | inProgress u =>
    cases ht
    rw [State.slotInProgress, State.port_updPort_self] at hst
    cases hst

/-- The privilege step refuses at any other port (R71). -/
theorem supervisorOnly_of_ne (hp : p ≠ s.supervisor) (body : State → Verdict) :
    supervisorOnly p s body = .refuse .noRight := by
  simp [supervisorOnly, State.privileged, hp]

/-- Settles O15: no code of the row names a command. -/
theorem undefinedCodeRefused : Obligations.UndefinedCodeRefused := by
  intro p c s hdue hne
  have hcode : decide (c ∉ commandCodes) = true := by
    rw [decide_eq_true_eq]
    exact fun hmem => hne c hmem rfl
  exact exec_of_refuse rfl hcode hdue rfl

/-- Settles O35: each of the thirteen rows has the privilege step before its own checks. -/
theorem supervisorCommandsNeedPrivilege : Obligations.SupervisorCommandsNeedPrivilege := by
  intro p s hp
  have hrefuse : ∀ {c : Instr} {code : BitVec 8} {isCode : BitVec 8 → Bool} {body : State → Verdict},
      takenCommand c = some (p, isCode, fun t => supervisorOnly p t body) → isCode code = true →
      s.Due p code → exec c s = .next (s.answered p .noRight Words4.zero) :=
    fun hc hcode hdue => exec_of_refuse hc hcode hdue (supervisorOnly_of_ne (s := s.served p) hp _)
  simp only [List.forall_mem_cons, List.not_mem_nil, IsEmpty.forall_iff, implies_true, and_true]
  and_intros <;> exact hrefuse rfl rfl

/-- Settles O36: every row of the list is taken at the Window Directory and answers as its verdict says. -/
theorem refusedCommandChangesOnlySlot : Obligations.RefusedCommandChangesOnlySlot := by
  intro p s t st
  have hframe : ∀ {c : Instr} {code : BitVec 8} {isCode : BitVec 8 → Bool} {body : State → Verdict},
      takenCommand c = some (p, isCode, body) → isCode code = true → s.Due p code → exec c s = .next t →
      (t.port p).slot.state = .done st → st ≠ .ok → t = s.answered p st Words4.zero :=
    fun hc hcode hdue ht => eq_answered_of_answerOf ((exec_of_due hc hcode hdue).symm.trans ht)
  simp only [List.forall_mem_cons, List.not_mem_nil, IsEmpty.forall_iff, implies_true, and_true]
  and_intros <;> exact hframe rfl rfl

end Answers

section VacantSlot

/-- Settles O24: were slots 1 to 5 all in use, the six slots would have six agents, `a` among them (R10). -/
theorem offerAlwaysFindsVacantSlot : Obligations.OfferAlwaysFindsVacantSlot := by
  intro x a hwf hopen _ hnone
  by_contra hfull
  simp only [not_exists, not_and] at hfull
  have hused : ∀ k, ∃ b, (x.grant k).agent = some b := by
    intro k
    by_cases hk : k = 0
    · obtain ⟨o, b, -, hgrant⟩ := hwf.body.ownerView hopen
      exact ⟨o, by rw [hk, hgrant, Grant.agent]⟩
    · have hvacant := hfull k hk
      cases hg : x.grant k with
      | vacant => exact absurd hg hvacant
      | offered b _ _ | active b _ _ | revoked b _ _ => exact ⟨b, rfl⟩
  choose agent hagent using hused
  have hinj : Function.Injective agent := fun j k hjk =>
    hwf.body.single j k (agent j) (by simp [Grant.isOf, hagent]) (by simp [Grant.isOf, hagent, hjk])
  obtain ⟨k, hk⟩ := Finite.injective_iff_surjective.1 hinj a
  have hof : (x.grant k).isOf a = true := by simp [Grant.isOf, hagent, hk]
  simp [hnone k] at hof

end VacantSlot

end Sys2Proof.Machine
end
section
/-!
Windows opened and lengthened (R78 to R82): the status of a command by its table against the checks of its verdict.
-/

namespace Sys2Proof.Machine

section Judged

variable {v u : Verdict} {l : List (Bool × Status)} {st st' : Status}

/-- What a command's table makes of its effect: the effect where the status is OK, else the refusal (R72). -/
def Verdict.judged (st : Status) (v : Verdict) : Verdict := if st = .ok then v else .refuse st

theorem Verdict.judged_of_ok (h : st = .ok) (v : Verdict) : v.judged st = v := if_pos h

theorem Verdict.judged_of_ne (h : st ≠ .ok) (v : Verdict) : v.judged st = .refuse st := if_neg h

/-- A check that fails exactly where the table's next condition holds. -/
theorem checks_cons_judged {ok : Bool} {c : Prop} [Decidable c] (hne : st ≠ .ok) (hc : ok = false ↔ c)
    (h : checks l v = u.judged st') : checks ((ok, st) :: l) v = u.judged (if c then st else st') := by
  by_cases hcond : c
  · rw [if_pos hcond, Verdict.judged_of_ne hne, hc.2 hcond]
    rfl
  · rw [if_neg hcond, ← h, Bool.eq_true_of_not_eq_false fun hok => hcond (hc.1 hok)]
    rfl

/-- A finished command leaves its effect and the caller's slot, and the arbiter's turn (R67, R68). -/
theorem exec_of_finished {c : Instr} {isCode : BitVec 8 → Bool} {body : State → Verdict} {code : BitVec 8}
    {s t : State} {p : Port} {res : Words4} (hc : takenCommand c = some (p, isCode, body)) (hcode : isCode code = true)
    (hdue : s.Due p code) (hbody : body (s.served p) = .finished (t.served p) res) :
    exec c s = .next (t.answered p .ok res) := by
  rw [exec_of_due hc hcode hdue, hbody, State.answerOf, State.finish_served]

end Judged

section Tables

variable (s : State) (p : Port)

theorem State.baseOk_iff (base : Nat) :
    s.baseOk base = true ↔ base < 0x10000000 ∧ base % s.extentBytes = 0 := by
  rw [State.baseOk, viewSpaceBytes, Bool.and_eq_true, decide_eq_true_iff, decide_eq_true_iff]

theorem State.fits_iff (base len : Nat) :
    s.fits base len = true ↔ base + len * s.extentBytes - 1 ≤ 0x0FFFFFFF := by
  rw [State.fits, viewSpaceBytes, decide_eq_true_iff]
  omega

theorem State.meets_iff (base len : Nat) (v : View) : s.meets base len v = true ↔ s.Overlap base len v := by
  simp [State.meets, State.Overlap]

theorem State.any_meets_iff (base len : Nat) (l : List View) :
    l.any (s.meets base len) = true ↔ ∃ v ∈ l, s.Overlap base len v := by
  simp only [List.any_eq_true, s.meets_iff]

theorem State.vacantSlot_eq_none_iff : s.vacantSlot = none ↔ ∀ w, (s.window w).state ≠ .vacant := by
  simp [State.vacantSlot]

theorem Window.anyGrant_eq_false_iff (x : Window) (test : Grant → Bool) :
    x.anyGrant test = false ↔ ∀ k, test (x.grant k) = false := by
  simp [Window.anyGrant]

/-- The views of a window by grant slot are those of its agents that stand in it. -/
theorem State.mem_viewBases_iff {w : WSlot} {k : GSlot} {a : Port} {b : Nat} :
    (k, a, b) ∈ (s.window w).viewBases ↔ ∃ v ∈ s.viewsOf a, v.window = w ∧ v.slot = k ∧ v.base = b := by
  rw [Window.mem_viewBases]
  constructor
  · intro h
    obtain ⟨v, hv, hbase, -⟩ := State.viewAt_of_viewOf (x := (w, k)) h
    obtain ⟨hw, hk, -⟩ := State.viewAt_eq_some hv
    exact ⟨v, State.mem_viewsOf.2 ⟨w, k, hv⟩, hw, hk, hbase⟩
  · rintro ⟨v, hv, rfl, rfl, rfl⟩
    obtain ⟨w, k, hat⟩ := State.mem_viewsOf.1 hv
    obtain ⟨rfl, rfl, -⟩ := State.viewAt_eq_some hat
    exact (State.viewOf_of_viewAt (x := (v.window, v.slot)) hat).1

theorem State.growFits_eq_false_iff (w : WSlot) (len : Nat) :
    s.growFits w len = false ↔ s.GrowPassesEnd w len := by
  rw [← Bool.not_eq_true, State.growFits, List.all_eq_true, State.GrowPassesEnd]
  push Not
  constructor
  · rintro ⟨⟨k, a, b⟩, hmem, hfits⟩
    obtain ⟨v, hv, hw, -, rfl⟩ := s.mem_viewBases_iff.1 hmem
    exact ⟨a, v, hv, hw, by rwa [Ne, s.fits_iff, not_le] at hfits⟩
  · rintro ⟨a, v, hv, hw, hend⟩
    exact ⟨(v.slot, a, v.base), s.mem_viewBases_iff.2 ⟨v, hv, hw, rfl, rfl⟩, by rwa [Ne, s.fits_iff, not_le]⟩

theorem State.growClear_eq_false_iff (w : WSlot) (len : Nat) :
    s.growClear w len = false ↔ s.GrowOverlaps w len := by
  rw [← Bool.not_eq_true, State.growClear, List.all_eq_true, State.GrowOverlaps]
  simp only [List.all_eq_true, Bool.or_eq_true, Bool.and_eq_true, decide_eq_true_eq, Bool.not_eq_true',
    ← Bool.not_eq_true, s.meets_iff]
  push Not
  constructor
  · rintro ⟨⟨k, a, b⟩, hmem, u, hu, hother, hmeets⟩
    obtain ⟨v, hv, hw, hk, rfl⟩ := s.mem_viewBases_iff.1 hmem
    exact ⟨a, v, hv, hw, u, hu, hw ▸ hk ▸ hother, hmeets⟩
  · rintro ⟨a, v, hv, hw, u, hu, hother, hmeets⟩
    exact ⟨(v.slot, a, v.base), s.mem_viewBases_iff.2 ⟨v, hv, hw, rfl, rfl⟩, u, hu, hw ▸ hother, hmeets⟩

/-- The effect of an OPEN whose checks have passed (R79). -/
def State.opening (n base : Nat) : Verdict :=
  match s.vacantSlot with
  | none => .refuse .tableFull
  | some w => .finished (s.openAt p w n base) (Words4.one (s.handleOf w).word)

/-- OPEN answers as its table says (R78). -/
theorem openVerdict_eq_judged : openVerdict p s =
    (s.opening p (s.args p).w0.toNat (s.args p).w1.toNat).judged
      (s.openStatus p (s.args p).w0.toNat (s.args p).w1.toNat) := by
  unfold openVerdict State.openStatus State.opening
  refine checks_cons_judged nofun decide_eq_false_iff_not <|
    checks_cons_judged nofun (by rw [← s.baseOk_iff, Bool.not_eq_true]) <|
    checks_cons_judged nofun (by rw [← s.fits_iff, Bool.not_eq_true]) <|
    checks_cons_judged nofun decide_eq_false_iff_not <|
    checks_cons_judged nofun decide_eq_false_iff_not <|
    checks_cons_judged nofun decide_eq_false_iff_not <|
    checks_cons_judged nofun (by rw [Bool.not_eq_false', s.any_meets_iff]) ?_
  cases hslot : s.vacantSlot with
  | none => rw [if_pos (s.vacantSlot_eq_none_iff.1 hslot)]; rfl
  | some w =>
    rw [if_neg fun hfull => by simp [s.vacantSlot_eq_none_iff.2 hfull] at hslot]
    exact checks_cons_judged nofun (by rw [decide_eq_false_iff_not, not_le]) rfl

theorem growVerdict_noWindow (h : validHandle s (s.args p).w0 = none) : growVerdict p s = .refuse .noWindow := by
  unfold growVerdict
  rw [h]

/-- GROW of a window answers as its table says (R81, R82). -/
theorem growVerdict_eq_judged {w : WSlot} (hw : validHandle s (s.args p).w0 = some w) : growVerdict p s =
    (Verdict.finished (s.growBy w (s.args p).w1.toNat)
      (Words4.one (numWord ((s.window w).extents.length + (s.args p).w1.toNat)))).judged
      (s.growStatus p w (s.args p).w1.toNat) := by
  have hstate : (decide ((s.window w).state = .opened) && (s.window w).drain.isEmpty &&
      !(s.window w).anyGrant Grant.isRevoked) = false ↔
      ¬ ((s.window w).state = .opened ∧ (s.window w).drain = DrainSet.empty ∧
        ∀ k, ((s.window w).grant k).isRevoked = false) := by
    rw [← Bool.not_eq_true, Bool.and_eq_true, Bool.and_eq_true, decide_eq_true_iff, DrainSet.isEmpty_iff,
      Bool.not_eq_true', Window.anyGrant_eq_false_iff, and_assoc]
  unfold growVerdict State.growStatus
  rw [hw]
  exact checks_cons_judged nofun decide_eq_false_iff_not <|
    checks_cons_judged nofun decide_eq_false_iff_not <|
    checks_cons_judged nofun hstate <|
    checks_cons_judged nofun decide_eq_false_iff_not <|
    checks_cons_judged nofun decide_eq_false_iff_not <|
    checks_cons_judged nofun (s.growFits_eq_false_iff w _) <|
    checks_cons_judged nofun (s.growClear_eq_false_iff w _) <|
    checks_cons_judged nofun (by rw [decide_eq_false_iff_not, not_le]) rfl

end Tables

section Opened

/-- Settles O16: the table's status, where it is not OK, is the refusal that the verdict gives. -/
theorem openRefusedAtFirstFailingCheck : Obligations.OpenRefusedAtFirstFailingCheck := by
  intro p s hdue hne
  exact exec_of_refuse rfl rfl hdue
    ((openVerdict_eq_judged (s.served p) p).trans (Verdict.judged_of_ne hne _))

/-- Settles O19: past its handle, GROW answers as the table says, and its effect is the table's. -/
theorem growAppendsExtents : Obligations.GrowAppendsExtents := by
  intro p s hdue
  refine ⟨fun hnone => ?_, fun w hw => ⟨fun hne => ?_, fun hok => ?_⟩⟩
  · exact exec_of_refuse rfl rfl hdue (growVerdict_noWindow (s.served p) p hnone)
  · exact exec_of_refuse rfl rfl hdue
      ((growVerdict_eq_judged (s.served p) p hw).trans (Verdict.judged_of_ne hne _))
  · exact exec_of_finished (t := s.growBy w (s.args p).w1.toNat) rfl rfl hdue
      ((growVerdict_eq_judged (s.served p) p hw).trans (Verdict.judged_of_ok hok _))

end Opened

end Sys2Proof.Machine
end
section
/-!
The ends of drains and of a hold wait in the rules' own terms (R94, R161, R173): DRAIN_END, CLEAR_DRAIN_END and
HOLD_FINISH.
-/

namespace Sys2Proof.Machine

section Ends

variable (s : State)

theorem State.restIf_eq (o : DrainOwner) : s.restIf o = { s with rle := s.rle.restedFrom o } := by
  have hcase : ∀ r, s.rle = r → s.restIf o = { s with rle := r.restedFrom o } := by
    intro r hr
    cases r with
    | abandoning src tgt ptr b x =>
      simp only [State.restIf, hr, Rle.restedFrom]
      split
      · rfl
      · rw [← hr]
    | idle | waiting | copying | cutover =>
      simp only [State.restIf, hr, Rle.restedFrom]
      rw [← hr]
  exact hcase s.rle rfl

theorem Window.hasView_iff (x : Window) : x.hasView = true ↔ ∃ k, (x.grant k).isView = true := by
  simp [Window.hasView, Window.anyGrant]

theorem Window.afterDrain_eq_ended (x : Window) : x.afterDrain = x.ended := by
  unfold Window.afterDrain Window.ended
  cases x.state <;> simp only [x.hasView_iff]

/-- The end of the drain of a window (R94). -/
theorem State.endDrain_eq_drainEnded (w : WSlot) : s.endDrain w = s.drainEnded w := by
  unfold State.endDrain State.drainEnded
  rw [State.restIf_eq, funext Window.afterDrain_eq_ended]
  cases (s.window w).owner <;> rfl

/-- The finish of the supervisor's command in progress (R68). -/
theorem State.finish_supervisor (res : Words4) : s.finish s.supervisor .ok res = s.finishedOk res :=
  s.updPort_updPort _ _

/-- The end of the drain of CLEAR (R173). -/
theorem State.endClearDrain_eq_clearEnded {c : ClearRecord} (hc : s.clearRec = some c) :
    s.endClearDrain = s.clearEnded c := by
  unfold State.endClearDrain State.clearEnded
  rw [hc]
  dsimp only
  rw [State.restIf_eq, State.finish_supervisor]
  rfl

/-- The end of a hold wait (R161). -/
theorem State.endHoldWait_eq_holdWaitEnded (q : Port) : s.endHoldWait q = s.holdWaitEnded q := by
  unfold State.endHoldWait State.holdWaitEnded
  cases (s.port q).holdWait with
  | absent => rfl
  | present live =>
    cases live with
    | false => rfl
    | true => exact State.finish_supervisor _ _

variable {s}

/-- DRAIN_END where the end of a window's drain has come (R94). -/
theorem exec_drainEnd (hn : s.resetn = false) {w : WSlot} (hempty : (s.window w).drain = DrainSet.empty)
    (hclear : s.underClear w = false) (hwork : (s.window w).state = .draining ∨ (s.window w).retiring ≠ []) :
    exec (.drainEnd w) s = .next (s.drainEnded w).settle := by
  have hdue : s.drainEndDue w = true := by
    simpa [State.drainEndDue, hn, hclear, (DrainSet.isEmpty_iff _).2 hempty] using hwork
  rw [← s.endDrain_eq_drainEnded]
  exact if_pos hdue

/-- CLEAR_DRAIN_END where the end of the drain of CLEAR has come (R173). -/
theorem exec_clearDrainEnd (hn : s.resetn = false) {c : ClearRecord} (hc : s.clearRec = some c)
    (hempty : c.drain = DrainSet.empty) : exec .clearDrainEnd s = .next (s.clearEnded c).settle := by
  have hdue : s.clearDrainEndDue = true := by
    simp [State.clearDrainEndDue, hn, hc, (DrainSet.isEmpty_iff _).2 hempty]
  rw [← s.endClearDrain_eq_clearEnded hc]
  exact if_pos hdue

/-- HOLD_FINISH where the end of a hold wait has come (R161). -/
theorem exec_holdFinish (hn : s.resetn = false) {q : Port} {live : Bool} (hwait : (s.port q).holdWait = .present live)
    (hidle : (s.port q).access = .idle) : exec (.holdFinish q) s = .next (s.holdWaitEnded q) := by
  have hdue : s.holdFinishDue q = true := by simp [State.holdFinishDue, hn, hwait, hidle]
  rw [← s.endHoldWait_eq_holdWaitEnded]
  exact if_pos hdue

/-- Settles O48: each row is due in its state, and performs the end that its rule describes. -/
theorem drainsAndHoldWaitsEnd : Obligations.DrainsAndHoldWaitsEnd := by
  intro s hn
  refine ⟨fun w o hempty hclear hwork ho => ?_, fun c hc hempty => ⟨_, rfl, ?_⟩,
    fun q live hwait hidle => ⟨_, rfl, ?_⟩⟩
  · rw [exec_drainEnd hn hempty hclear hwork, State.drainEnded, ho]
  · exact exec_clearDrainEnd hn hc hempty
  · rw [exec_holdFinish hn hwait hidle, State.holdWaitEnded, hwait]
    cases live <;> rfl

end Ends

end Sys2Proof.Machine
end
section
/-!
RELEASE in the rules' own terms (R98, R109).
-/

namespace Sys2Proof.Machine

section Released

variable {s : State} {p : Port} {w : WSlot} {k : GSlot}

theorem Window.slotOf_eq_some {x : Window} (h : x.OneSlotEach) {a : Port} (hk : (x.grant k).isOf a = true) :
    x.slotOf a = some k := by
  cases hslot : x.slotOf a with
  | none => exact absurd (of_decide_eq_true hk) (slotOf_none hslot k)
  | some j => rw [h j k a (decide_eq_true (slotOf_some hslot)) hk]

theorem Window.slotOf_eq_none {x : Window} {a : Port} (h : ∀ k, (x.grant k).isOf a = false) : x.slotOf a = none :=
  List.find?_eq_none.2 fun k _ => by simp [h k]

/-- The effect of a RELEASE of grant slot `k` (R109). -/
def State.releasing (s : State) (w : WSlot) (k : GSlot) : State :=
  if (s.window w).state = .opened then (s.updWindow w fun x => x.released k).tellOwner w
  else s.updWindow w fun x => x.released k

theorem releaseVerdict_noWindow (h : validHandle s (s.args p).w0 = none) :
    releaseVerdict p s = .refuse .noWindow := by
  unfold releaseVerdict
  rw [h]

theorem releaseVerdict_noRight (hw : validHandle s (s.args p).w0 = some w)
    (h : ∀ k, ((s.window w).grant k).isOf p = false) : releaseVerdict p s = .refuse .noRight := by
  unfold releaseVerdict
  rw [hw]
  dsimp only
  rw [Window.slotOf_eq_none h]

/-- RELEASE by the agent of grant slot `k` answers as its table says (R109). -/
theorem releaseVerdict_eq_judged (hw : validHandle s (s.args p).w0 = some w) (hone : (s.window w).OneSlotEach)
    (hk : ((s.window w).grant k).isOf p = true) : releaseVerdict p s =
      (Verdict.finished (s.releasing w k) Words4.zero).judged
        (if ((s.window w).grant k).isView = false ∨ k = 0 ∧ (s.window w).state = .opened then .state else .ok) := by
  unfold releaseVerdict
  rw [hw]
  dsimp only
  rw [Window.slotOf_eq_some hone hk, ite_or]
  exact checks_cons_judged nofun Iff.rfl <| checks_cons_judged nofun (by simp) rfl

theorem State.releasing_opened {o : Port} (hs : (s.window w).state = .opened) (ho : (s.window w).owner = some o) :
    s.releasing w k = (s.withGrant w k .vacant).told o .grants := by
  have hrel : (s.window w).released k = (s.window w).setGrant k .vacant := by
    unfold Window.released
    rw [hs]
  have hstate : (s.updWindow w fun x => x.released k) = s.withGrant w k .vacant :=
    congrArg (fun ws => { s with windows := ws }) (Tab.upd_congr _ _ hrel)
  have howner : ((s.withGrant w k .vacant).window w).owner = some o := by
    rw [← hstate, State.window_updWindow_self, hrel]
    exact ho
  rw [State.releasing, if_pos hs, hstate, State.tellOwner, howner]
  rfl

theorem State.releasing_closed {f : Window → Window} (hs : (s.window w).state ≠ .opened)
    (hrel : (s.window w).released k = f (s.window w)) :
    s.releasing w k = { s with windows := Tab.upd s.windows w f } := by
  rw [State.releasing, if_neg hs]
  exact congrArg (fun ws => { s with windows := ws }) (Tab.upd_congr (f := fun x => x.released k) s.windows w hrel)

/-- The released record keeps its slot while a view remains or the window is not RETIRING (R98). -/
theorem Window.released_keeps {x : Window}
    (h : x.state = .draining ∨ x.state = .retiring ∧ ∃ j, j ≠ k ∧ (x.grant j).isView = true) :
    x.released k = x.setGrant k .vacant := by
  unfold Window.released
  rcases h with hs | ⟨hs, j, hj, hview⟩
  · rw [hs]
  · rw [hs]
    exact if_pos ((Window.hasView_iff _).2 ⟨j, by rwa [Window.grant_setGrant, if_neg hj]⟩)

/-- A RETIRING window left with no view ends (R98). -/
theorem Window.released_ends {x : Window} (hs : x.state = .retiring)
    (h : ∀ j, j ≠ k → (x.grant j).isView = false) : x.released k = Window.vacantAt (x.gen + 1) := by
  unfold Window.released
  rw [hs]
  refine if_neg fun hview => ?_
  obtain ⟨j, hj⟩ := (Window.hasView_iff _).1 hview
  rw [Window.grant_setGrant] at hj
  split at hj
  · cases hj
  · next hne => rw [h j hne] at hj; cases hj

/-- Settles O29: the checks of the verdict are those of the table, and the released record says what follows. -/
theorem releaseGivesViewBack : Obligations.ReleaseGivesViewBack := by
  intro p s hdue
  refine ⟨fun hnone => ?_, fun w o hw ho hone => ⟨fun hno => ?_, fun k hk => ?_⟩⟩
  · exact exec_of_refuse rfl rfl hdue (releaseVerdict_noWindow (s := s.served p) hnone)
  · exact exec_of_refuse rfl rfl hdue (releaseVerdict_noRight (s := s.served p) hw hno)
  have hjudged := releaseVerdict_eq_judged (s := s.served p) hw hone hk
  refine ⟨fun hbad => ?_, fun hview hslot => ?_⟩
  · exact exec_of_refuse rfl rfl hdue (hjudged.trans
      ((congrArg (Verdict.judged · _) (if_pos hbad)).trans (Verdict.judged_of_ne (st := .state) nofun _)))
  have hpass : ¬ (((s.window w).grant k).isView = false ∨ k = 0 ∧ (s.window w).state = .opened) := by
    simp [hview, hslot]
  have hpasses := hjudged.trans (Verdict.judged_of_ok (if_neg hpass) _)
  have hfinished : ∀ {t : State}, (s.served p).releasing w k = t.served p →
      exec (.release p) s = .next (t.answered p .ok Words4.zero) :=
    fun h => exec_of_finished rfl rfl hdue (hpasses.trans (congrArg (Verdict.finished · _) h))
  refine ⟨fun hs => ?_, fun hs => ?_, fun hs hlast => ?_⟩
  · exact hfinished (State.releasing_opened (s := s.served p) hs ho)
  · have hclosed : (s.window w).state ≠ .opened := by
      rcases hs with hs | ⟨hs, -⟩ <;> simp [hs]
    exact hfinished (State.releasing_closed (s := s.served p) (f := fun x => x.setGrant k .vacant) hclosed
      (Window.released_keeps hs))
  · have hclosed : (s.window w).state ≠ .opened := by simp [hs]
    exact hfinished (State.releasing_closed (s := s.served p) (f := fun x => Window.vacantAt (x.gen + 1)) hclosed
      (Window.released_ends hs hlast))

end Released

end Sys2Proof.Machine
end
section
/-!
Extents that leave a window at a SHRINK or a close, in the rules' own terms (R33, R38, R85 to R91, R94, R95, R149): the
extents and the engine, the window's record, and what the ports are told.
-/

namespace Sys2Proof.Machine

section Leaving

variable (s : State) (w : WSlot) (l : List Extent)

/-- The target that leaves is that of the relocation abandoned (R87, R149). -/
theorem State.targetLeaving_eq : s.targetLeaving l = ((s.abandoned l).map Prod.fst).toList := by
  rw [s.abandoned_eq l, State.targetLeaving]
  cases s.rle.live with
  | none => rfl
  | some x => dsimp only; split <;> rfl

/-- The engine joins the drain set where its abandonment leaves a block in copy (R150). -/
theorem State.engineJoins_eq : s.engineJoins l = ((s.abandoned l).map Prod.snd).getD false := by
  unfold State.engineJoins State.abandoned
  cases s.rle with
  | idle | waiting | abandoning => rfl
  | copying src tgt ptr => by_cases h : src ∈ l <;> simp [h]
  | cutover src tgt ptr aw cl bu sw =>
    cases sw with
    | taken => rfl
    | notRequested | requested => by_cases h : src ∈ l <;> simp [h]

theorem State.retiringOf_eq_append : s.retiringOf l = l ++ s.targetLeaving l := by
  rw [State.retiringOf, s.targetLeaving_eq]
  cases s.abandoned l with
  | none => exact (List.append_nil l).symm
  | some x => rfl

theorem State.wasTarget_eq (e : Extent) : s.wasTarget w e = decide (s.waitingTarget w = some e) := by
  unfold State.wasTarget State.waitingTarget
  cases s.rle with
  | idle | waiting | copying | cutover => rfl
  | abandoning src tgt ptr b o =>
    cases o with
    | clear => rfl
    | window v => by_cases h : v = w <;> simp [h]

/-- The retiring list after a take is the rules' (R95). -/
theorem State.retiringWith_eq_retiringAfter : s.retiringWith w l = s.retiringAfter w l := by
  have hwas := funext (s.wasTarget_eq w)
  simp only [State.retiringWith, State.retiringAfter, State.retiringOf_eq_append, hwas, decide_not, ne_eq,
    List.append_assoc]

/-- The drain set after a take is the rules' (R86, R91). -/
theorem State.drain_union_drainFormed : (s.window w).drain.union (s.drainFormed w l) = s.drainAfter w l := by
  have hrle : (s.drainFormed w l).rle = s.engineJoins l := by
    rw [s.engineJoins_eq, State.drainFormed]
    cases s.abandoned l <;> rfl
  rw [DrainSet.union, hrle, State.drainAfter]
  refine congrArg (DrainSet.mk · _) (PortSet.ext fun q => ?_)
  simp [State.drainFormed, State.portsInFlight]

theorem State.mem_retiringAfter {e : Extent} :
    e ∈ s.retiringAfter w l ↔ e ∈ (s.window w).retiring ∨ e ∈ l ∨ e ∈ s.targetLeaving l := by
  simp only [State.retiringAfter, List.mem_append, List.mem_filter, Bool.not_eq_true']
  cases s.wasTarget w e <;> tauto

/-- The engine when extents have left, before the end of a drain (R149). -/
def State.engineLeft : Rle := if s.targetLeaving l = [] then s.rle else s.rle.abandon (.window w)

/-- The engine after a take is the rules' (R149, R151). -/
theorem State.engineAfter_eq : s.engineAfter w l =
    if s.drainAfter w l = DrainSet.empty then (s.engineLeft w l).restedFrom (.window w) else s.engineLeft w l := by
  refine congrArg (fun r : Rle => if s.drainAfter w l = DrainSet.empty then r.restedFrom (.window w) else r) ?_
  unfold State.engineLeft State.targetLeaving Rle.live
  cases s.rle with
  | idle | waiting | abandoning => rfl
  | copying src tgt ptr => by_cases h : src ∈ l <;> simp [h, Rle.abandon]
  | cutover src tgt ptr aw cl bu sw =>
    cases sw with
    | taken => rfl
    | notRequested | requested => by_cases h : src ∈ l <;> simp [h, Rle.abandon]

end Leaving

section Losing

variable (s : State) (w : WSlot) (l : List Extent)

/-- The loss of extents but for an abandonment: RETIRING, and off the Relocation List (R33, R85). -/
def State.losing : State :=
  { s.mapExtents fun e x => if e ∈ l then { x with st := .retiring } else x with
    relocList := s.relocList.filter fun e => decide (e ∉ l) }

/-- Extents leave with no relocation of one of them, or with one that is abandoned (R149). -/
theorem State.loseExtents_cases :
    s.targetLeaving l = [] ∧ s.loseExtents w l = s.losing l ∨
      ∃ tgt, s.targetLeaving l = [tgt] ∧ s.loseExtents w l = (s.losing l).abandonRelocation (.window w) tgt := by
  rw [s.targetLeaving_eq, State.loseExtents]
  cases s.abandoned l with
  | none => exact Or.inl ⟨rfl, rfl⟩
  | some x => exact Or.inr ⟨x.1, rfl, rfl⟩

theorem State.loseExtents_frame : ∃ x r g a u, s.loseExtents w l =
    { s with extents := x, relocList := r, rle := g, abandonHanded := a, ports := u } := by
  rcases s.loseExtents_cases w l with ⟨-, h⟩ | ⟨tgt, -, h⟩ <;> rw [h] <;> exact ⟨_, _, _, _, _, rfl⟩

theorem State.entry_losing (e : Extent) :
    (s.losing l).entry e = if e ∈ l then { s.entry e with st := .retiring } else s.entry e :=
  Tab.get_mapAll _ _ _

theorem State.entry_abandonRelocation (o : DrainOwner) (tgt e : Extent) :
    (s.abandonRelocation o tgt).entry e = if e = tgt then { s.entry e with st := .retiring } else s.entry e :=
  Tab.get_upd _ _ _ _

theorem State.entry_loseExtents (e : Extent) : (s.loseExtents w l).entry e =
    if e ∈ l ∨ e ∈ s.targetLeaving l then { s.entry e with st := .retiring } else s.entry e := by
  rcases s.loseExtents_cases w l with ⟨ht, h⟩ | ⟨tgt, ht, h⟩
  · simp [h, ht, State.entry_losing]
  · rw [h, ht, State.entry_abandonRelocation, State.entry_losing]
    by_cases he : e = tgt
    · subst he
      by_cases hl : e ∈ l <;> simp [hl]
    · simp [he]

theorem State.relocList_loseExtents :
    (s.loseExtents w l).relocList = s.relocList.filter fun e => decide (e ∉ l) := by
  rcases s.loseExtents_cases w l with ⟨-, h⟩ | ⟨tgt, -, h⟩ <;> rw [h] <;> rfl

theorem State.rle_loseExtents : (s.loseExtents w l).rle = s.engineLeft w l := by
  rcases s.loseExtents_cases w l with ⟨ht, h⟩ | ⟨tgt, ht, h⟩ <;> rw [h, State.engineLeft, ht] <;> rfl

theorem State.abandonHanded_loseExtents : (s.loseExtents w l).abandonHanded =
    if s.targetLeaving l = [] then s.abandonHanded else PortSet.all := by
  rcases s.loseExtents_cases w l with ⟨ht, h⟩ | ⟨tgt, ht, h⟩ <;> rw [h, ht] <;> rfl

theorem State.port_abandonRelocation (o : DrainOwner) (tgt : Extent) (q : Port) :
    (s.abandonRelocation o tgt).port q = if q = s.supervisor then
      { s.port q with attention := KindSet.add (s.port q).attention .moved } else s.port q :=
  Tab.get_upd _ _ _ _

/-- MOVED goes to the supervisor with an abandonment (R149). -/
theorem State.port_loseExtents (q : Port) : (s.loseExtents w l).port q =
    if q = s.supervisor ∧ s.targetLeaving l ≠ [] then
      { s.port q with attention := KindSet.add (s.port q).attention .moved }
    else s.port q := by
  rcases s.loseExtents_cases w l with ⟨ht, h⟩ | ⟨tgt, ht, h⟩
  · rw [h, ht, if_neg (by simp)]
    rfl
  · simp only [h, ht, State.port_abandonRelocation, ne_eq, List.cons_ne_nil, not_false_eq_true, and_true]
    rfl

end Losing

end Sys2Proof.Machine
end
section
/-!
What SHRINK and a close have in common, in the rules' own terms: extents leave a window, and a drain that is formed
empty ends at once (R85 to R91, R94).
-/

namespace Sys2Proof.Machine

section Parted

/-- The loss of extents, with these port records after it and the window's record changed by `f`: what SHRINK and a
close do before the end of a drain formed empty. -/
def State.parting (s : State) (w : WSlot) (l : List Extent) (ports : Vector PortUnit 6) (f : Window → Window) : State :=
  State.updWindow { s.loseExtents w l with ports := ports } w f

/-- The same, with the end of a drain formed empty (R86, R91, R94). -/
def State.parted (s : State) (w : WSlot) (l : List Extent) (ports : Vector PortUnit 6) (f : Window → Window) : State :=
  (s.parting w l ports f).endDrainIfEmpty w

/-- The record `x` of the window in slot `w`, owned by `o`, after these extents have left it (R86, R87, R91). -/
structure State.RecordLeft (s : State) (w : WSlot) (l : List Extent) (o : Port) (x : Window) : Prop where
  drain : x.drain = s.drainAfter w l
  retiring : x.retiring = s.retiringAfter w l
  owner : x.owner = some o

variable {s : State} {w : WSlot} {l : List Extent} {ports : Vector PortUnit 6} {f : Window → Window} {o : Port}

theorem State.window_parting : (s.parting w l ports f).window w = f (s.window w) := by
  rw [State.parting, State.window_updWindow_self]
  exact congrArg f (State.window_congr (s.loseExtents_windows w l) w)

/-- What follows the loss is the end of the drain where the drain set is empty, and nothing where it has a member. -/
theorem State.parted_eq (h : s.RecordLeft w l o (f (s.window w))) : s.parted w l ports f =
    if s.drainAfter w l = DrainSet.empty then (s.parting w l ports f).endDrain w else s.parting w l ports f := by
  rw [State.parted, State.endDrainIfEmpty, State.window_parting, h.drain]
  simp only [DrainSet.isEmpty_iff]

theorem State.endDrain_frame (s : State) (w : WSlot) : ∃ u v x l r, s.endDrain w =
    { s with ports := u, windows := v, extents := x, wipeList := l, rle := r } := by
  rw [s.endDrain_eq_drainEnded, State.drainEnded]
  cases (s.window w).owner <;> exact ⟨_, _, _, _, _, rfl⟩

theorem State.parted_frame (h : s.RecordLeft w l o (f (s.window w))) : s.parted w l ports f = { s with
    windows := (s.parted w l ports f).windows, extents := (s.parted w l ports f).extents
    wipeList := (s.parted w l ports f).wipeList, relocList := (s.parted w l ports f).relocList
    rle := (s.parted w l ports f).rle, abandonHanded := (s.parted w l ports f).abandonHanded
    ports := (s.parted w l ports f).ports } := by
  obtain ⟨x, r, g, a, u, hlose⟩ := s.loseExtents_frame w l
  obtain ⟨u', v', x', l', r', hend⟩ := (s.parting w l ports f).endDrain_frame w
  rw [State.parted_eq h]
  split
  · rw [hend, State.parting, hlose]
    rfl
  · rw [State.parting, hlose]
    rfl

theorem State.window_parted (v : WSlot) :
    (s.parted w l ports f).window v = if v = w then (f (s.window w)).endIfEmpty else s.window v :=
  State.window_part (u := { s.loseExtents w l with ports := ports }) rfl v

/-- DRAINED goes to the window's owner where the drain has ended (R94). -/
theorem State.port_parted (h : s.RecordLeft w l o (f (s.window w))) (q : Port) : (s.parted w l ports f).port q =
    if q = o ∧ s.drainAfter w l = DrainSet.empty then
      { Tab.get ports q with attention := KindSet.add (Tab.get ports q).attention .drained }
    else Tab.get ports q := by
  have hport : (s.parting w l ports f).port q = Tab.get ports q := rfl
  rw [State.parted_eq h]
  by_cases hd : s.drainAfter w l = DrainSet.empty
  · simp only [hd, if_true, and_true, State.port_endDrain, State.window_parting, h.owner, hport, Option.some.injEq,
      eq_comm]
  · simp only [hd, if_false, and_false, hport]

theorem State.entry_parted (h : s.RecordLeft w l o (f (s.window w))) (hwait : s.Waiting w) (e : Extent) :
    (s.parted w l ports f).entry e = if e ∈ s.retiringAfter w l then
      { s.entry e with st := if s.drainAfter w l = DrainSet.empty then .dirty else .retiring } else s.entry e := by
  have hentry : (s.parting w l ports f).entry e = (s.loseExtents w l).entry e := rfl
  rw [State.parted_eq h]
  by_cases hd : s.drainAfter w l = DrainSet.empty
  · rw [if_pos hd, if_pos hd, State.entry_endDrain, State.window_parting, h.retiring, hentry, State.entry_loseExtents]
    by_cases he : e ∈ s.retiringAfter w l
    · rw [if_pos he, if_pos he]
      split <;> rfl
    · rw [if_neg he, if_neg he, if_neg fun hl => he ((s.mem_retiringAfter w l).2 (Or.inr hl))]
  · rw [if_neg hd, if_neg hd, hentry, State.entry_loseExtents]
    by_cases hl : e ∈ l ∨ e ∈ s.targetLeaving l
    · rw [if_pos hl, if_pos ((s.mem_retiringAfter w l).2 (Or.inr hl))]
    · rw [if_neg hl]
      split
      · next he =>
        have hst := hwait e (((s.mem_retiringAfter w l).1 he).resolve_right hl)
        rw [← hst]
      · rfl

/-- What becomes of the extents that leave is what the rules say (R33, R37, R38, R85 to R91, R94, R149). -/
theorem State.extentsLeft_parted (h : s.RecordLeft w l o (f (s.window w))) (hwait : s.Waiting w) :
    ExtentsLeft s (s.parted w l ports f) w l := by
  have hrel : (s.parting w l ports f).relocList = (s.loseExtents w l).relocList := rfl
  have hrle : (s.parting w l ports f).rle = (s.loseExtents w l).rle := rfl
  have hhand : (s.parting w l ports f).abandonHanded = (s.loseExtents w l).abandonHanded := rfl
  have hwipe : (s.parting w l ports f).wipeList = s.wipeList := s.loseExtents_wipeList w l
  refine ⟨State.entry_parted h hwait, ?_, ?_, ?_, ?_⟩
  · rw [State.parted, State.endDrainIfEmpty_relocList, hrel, State.relocList_loseExtents]
  · rw [State.parted_eq h]
    split
    · rw [State.wipeList_endDrain, State.window_parting, h.retiring, hwipe]
    · exact hwipe
  · rw [State.parted_eq h, State.engineAfter_eq]
    split
    · rw [State.rle_endDrain, State.restIf_eq, hrle, State.rle_loseExtents]
    · rw [hrle, State.rle_loseExtents]
  · rw [State.parted, State.endDrainIfEmpty_abandonHanded, hhand, State.abandonHanded_loseExtents]

/-- Nothing but the window's record, extents, engine and attention sets changes. -/
theorem State.leavesOthers_parted (h : s.RecordLeft w l o (f (s.window w)))
    (hports : ∀ q, Tab.get ports q = { s.port q with attention := (Tab.get ports q).attention }) :
    LeavesOthers s (s.parted w l ports f) s.lastServed w := by
  refine ⟨State.parted_frame h, fun x hx => ?_, fun q => ?_⟩
  · rw [State.window_parted, if_neg hx]
  · rw [State.port_parted h]
    split <;> rw [hports q]

theorem State.adds_parted (h : s.RecordLeft w l o (f (s.window w))) {kinds : Port → Kind → Prop}
    (hkinds : ∀ q k, KindSet.has (Tab.get ports q).attention k = true ↔
      KindSet.has (s.port q).attention k = true ∨ kinds q k) :
    Adds s (s.parted w l ports f) fun q k =>
      (q = o ∧ k = .drained ∧ s.drainAfter w l = DrainSet.empty) ∨ kinds q k := by
  intro q k
  rw [State.port_parted h]
  by_cases hd : q = o ∧ s.drainAfter w l = DrainSet.empty
  · rw [if_pos hd, KindSet.has_add, Bool.or_eq_true, hkinds, decide_eq_true_iff]
    tauto
  · rw [if_neg hd, hkinds]
    tauto

/-- MOVED is added at the supervisor where a relocation is abandoned (R149). -/
theorem State.has_loseExtents (q : Port) (k : Kind) : KindSet.has ((s.loseExtents w l).port q).attention k = true ↔
    KindSet.has (s.port q).attention k = true ∨ (q = s.supervisor ∧ k = .moved ∧ s.targetLeaving l ≠ []) := by
  rw [State.port_loseExtents]
  by_cases hm : q = s.supervisor ∧ s.targetLeaving l ≠ []
  · rw [if_pos hm, KindSet.has_add, Bool.or_eq_true, decide_eq_true_iff]
    tauto
  · rw [if_neg hm]
    tauto

theorem State.port_loseExtents_eq (q : Port) : (s.loseExtents w l).port q =
    { s.port q with attention := ((s.loseExtents w l).port q).attention } := by
  rw [State.port_loseExtents]
  split <;> rfl

end Parted

end Sys2Proof.Machine
end
section
/-!
SHRINK and CLOSE in the rules' own terms (R84 to R91, R94): their checks, what they do to the window's record and what
they tell the ports.
-/

namespace Sys2Proof.Machine

section Finished

/-- A command finished at its take, its effect followed by what happens at once. -/
theorem exec_of_settled {c : Instr} {isCode : BitVec 8 → Bool} {body : State → Verdict} {code : BitVec 8}
    {s v : State} {p : Port} {res : Words4} (hc : takenCommand c = some (p, isCode, body)) (hcode : isCode code = true)
    (hdue : s.Due p code) (hserved : v.lastServed = p) (hbody : body (s.served p) = .finished v.settle res) :
    exec c s = .next (v.settle.answered p .ok res) := by
  have hsettle : v.settle = v.settle.served p := by
    rw [← hserved, ← v.settle_lastServed]
    rfl
  exact exec_of_finished hc hcode hdue (hbody.trans (congrArg (Verdict.finished · res) hsettle))

end Finished

section Shrink

variable {s : State} {p : Port} {w : WSlot} {n : Nat}

/-- The status of a SHRINK by its checks, its handle being valid (R84). -/
def State.shrinkStatus (s : State) (p : Port) (w : WSlot) (n : Nat) : Status :=
  if ¬ (1 ≤ n ∧ n ≤ 127) then .badRange
  else if ¬ (s.window w).owner = some p then .noRight
  else if ¬ ((s.window w).state = .opened ∧ (s.window w).drain = DrainSet.empty) then .state
  else if ¬ n < (s.window w).extents.length then .badRange
  else .ok

theorem shrinkVerdict_noWindow (h : validHandle s (s.args p).w0 = none) : shrinkVerdict p s = .refuse .noWindow := by
  unfold shrinkVerdict
  rw [h]

theorem shrinkVerdict_eq_judged (hw : validHandle s (s.args p).w0 = some w) : shrinkVerdict p s =
    (Verdict.finished (s.shrinkBy w (s.args p).w1.toNat).settle
      (Words4.one (numWord ((s.window w).extents.length - (s.args p).w1.toNat)))).judged
      (s.shrinkStatus p w (s.args p).w1.toNat) := by
  have hstate : (decide ((s.window w).state = .opened) && (s.window w).drain.isEmpty) = false ↔
      ¬ ((s.window w).state = .opened ∧ (s.window w).drain = DrainSet.empty) := by
    rw [← Bool.not_eq_true, Bool.and_eq_true, decide_eq_true_iff, DrainSet.isEmpty_iff]
  unfold shrinkVerdict State.shrinkStatus
  rw [hw]
  exact checks_cons_judged nofun decide_eq_false_iff_not <|
    checks_cons_judged nofun decide_eq_false_iff_not <|
    checks_cons_judged nofun hstate <|
    checks_cons_judged nofun decide_eq_false_iff_not rfl

/-- The extents that a SHRINK by `n` takes from the window: the highest ordinals (R85). -/
def Window.highest (x : Window) (n : Nat) : List Extent := x.extents.drop (x.extents.length - n)

/-- The window's record at a SHRINK, its drain not yet judged (R85, R86). -/
def State.shrinkRecord (s : State) (w : WSlot) (n : Nat) (x : Window) : Window :=
  x.shrinking ((s.window w).extents.take ((s.window w).extents.length - n))
    (x.drain.union (s.drainFormed w ((s.window w).highest n))) (s.retiringWith w ((s.window w).highest n))

theorem State.shrinkBy_eq_parted : s.shrinkBy w n =
    s.parted w ((s.window w).highest n) (s.loseExtents w ((s.window w).highest n)).ports (s.shrinkRecord w n) := rfl

theorem State.recordLeft_shrinkRecord {o : Port} (ho : (s.window w).owner = some o) :
    s.RecordLeft w ((s.window w).highest n) o (s.shrinkRecord w n (s.window w)) :=
  ⟨s.drain_union_drainFormed w _, s.retiringWith_eq_retiringAfter w _, ho⟩

/-- An OPEN window stays OPEN at the end of its drain (R94). -/
theorem Window.endIfEmpty_opened {x : Window} (hs : x.state = .opened) :
    x.endIfEmpty = { x with retiring := if x.drain = DrainSet.empty then [] else x.retiring } := by
  unfold Window.endIfEmpty Window.afterDrain
  by_cases hd : x.drain = DrainSet.empty
  · rw [if_pos hd, if_pos hd, hs]
    simp only [← hd]
  · rw [if_neg hd, if_neg hd]

theorem State.window_shrinkBy (hs : (s.window w).state = .opened) : (s.shrinkBy w n).window w =
    { s.window w with
      extents := (s.window w).extents.take ((s.window w).extents.length - n)
      drain := s.drainAfter w ((s.window w).highest n)
      retiring := if s.drainAfter w ((s.window w).highest n) = DrainSet.empty then []
        else s.retiringAfter w ((s.window w).highest n) } := by
  rw [State.shrinkBy_eq_parted, State.window_parted, if_pos rfl,
    Window.endIfEmpty_opened (x := s.shrinkRecord w n (s.window w)) hs, State.shrinkRecord,
    s.drain_union_drainFormed, s.retiringWith_eq_retiringAfter]
  rfl

theorem State.leavesOthers_shrinkBy {o : Port} (ho : (s.window w).owner = some o) :
    LeavesOthers s (s.shrinkBy w n) s.lastServed w :=
  State.leavesOthers_parted (State.recordLeft_shrinkRecord ho) State.port_loseExtents_eq

theorem State.extentsLeft_shrinkBy {o : Port} (ho : (s.window w).owner = some o) (hwait : s.Waiting w) :
    ExtentsLeft s (s.shrinkBy w n) w ((s.window w).highest n) :=
  State.extentsLeft_parted (State.recordLeft_shrinkRecord ho) hwait

theorem State.adds_shrinkBy {o : Port} (ho : (s.window w).owner = some o) : Adds s (s.shrinkBy w n) fun q k =>
    (q = o ∧ k = .drained ∧ s.drainAfter w ((s.window w).highest n) = DrainSet.empty) ∨
    (q = s.supervisor ∧ k = .moved ∧ s.targetLeaving ((s.window w).highest n) ≠ []) :=
  State.adds_parted (State.recordLeft_shrinkRecord ho) State.has_loseExtents

/-- Settles O20: the checks of the verdict are those of the table, and the highest ordinals leave as R85 to R87 say. -/
theorem shrinkRemovesHighestOrdinals : Obligations.ShrinkRemovesHighestOrdinals := by
  intro p s hdue
  refine ⟨fun hnone => ?_, ?_⟩
  · exact exec_of_refuse rfl rfl hdue (shrinkVerdict_noWindow (s := s.served p) hnone)
  rintro w n l hw rfl rfl
  have hjudged := shrinkVerdict_eq_judged (s := s.served p) hw
  have hrefuse : ∀ {st : Status}, s.shrinkStatus p w (s.args p).w1.toNat = st → st ≠ .ok →
      exec (.shrink p) s = .next (s.answered p st Words4.zero) := by
    rintro st rfl hne
    exact exec_of_refuse rfl rfl hdue (hjudged.trans (Verdict.judged_of_ne hne _))
  refine ⟨fun hn => ?_, fun h1 h127 ho => ?_, fun h1 h127 ho hs => ?_, fun h1 h127 ho hs hd => ⟨fun hlen => ?_,
    fun hlen hwait => ?_⟩⟩
  · exact hrefuse (if_pos hn) nofun
  · exact hrefuse (by simp [State.shrinkStatus, h1, h127, ho]) nofun
  · exact hrefuse (by rw [State.shrinkStatus, if_neg (not_not.2 ⟨h1, h127⟩), if_neg (not_not.2 ho), if_pos hs]) nofun
  · exact hrefuse (by simp [State.shrinkStatus, h1, h127, ho, hs, hd, hlen]) nofun
  · have hok : s.shrinkStatus p w (s.args p).w1.toNat = .ok := by
      simp [State.shrinkStatus, h1, h127, ho, hs, hd, hlen]
    have hothers := State.leavesOthers_shrinkBy (s := s.served p) (n := (s.args p).w1.toNat) ho
    exact ⟨_, exec_of_settled rfl rfl hdue (congrArg State.lastServed hothers.1)
      (hjudged.trans (Verdict.judged_of_ok hok _)), hothers, State.extentsLeft_shrinkBy (s := s.served p) ho hwait,
      State.window_shrinkBy (s := s.served p) hs, State.adds_shrinkBy (s := s.served p) ho⟩

end Shrink

section Close

variable {s : State} {p cause : Port} {w : WSlot} {forced : Bool}

/-- The status of a CLOSE by its checks, its handle being valid (R88). -/
def State.closeStatus (s : State) (p : Port) (w : WSlot) : Status :=
  if ¬ (s.window w).owner = some p then .noRight
  else if ¬ (s.window w).state = .opened then .state
  else .ok

theorem closeVerdict_noWindow (h : validHandle s (s.args p).w0 = none) : closeVerdict p s = .refuse .noWindow := by
  unfold closeVerdict
  rw [h]

theorem closeVerdict_eq_judged (hw : validHandle s (s.args p).w0 = some w) : closeVerdict p s =
    (Verdict.finished (s.closeWindow p false w).settle Words4.zero).judged (s.closeStatus p w) := by
  unfold closeVerdict State.closeStatus
  rw [hw]
  exact checks_cons_judged nofun decide_eq_false_iff_not <|
    checks_cons_judged nofun decide_eq_false_iff_not rfl

/-- The ports' records after a close: VIEWS and OFFERS told (R90, R166). -/
def State.closePorts (s : State) (cause : Port) (forced : Bool) (w : WSlot) : Vector PortUnit 6 :=
  (State.addAttentionWhere
    (State.addAttentionWhere (s.loseExtents w (s.window w).extents)
      (fun q => (s.window w).losesView forced q && decide (q ≠ cause)) .views)
    (fun q => (s.window w).offers q && decide (q ≠ cause)) .offers).ports

/-- The window's record at its close, its drain not yet judged (R89 to R91). -/
def State.closeRecord (s : State) (forced : Bool) (w : WSlot) (x : Window) : Window :=
  { x with
    state := .draining
    extents := []
    closedLen := (s.window w).extents.length
    grants := Tab.mapAll x.grants fun k g => g.atClose forced k
    drain := x.drain.union (s.drainFormed w (s.window w).extents)
    retiring := s.retiringWith w (s.window w).extents }

theorem State.closeWindow_eq_parted : s.closeWindow cause forced w =
    s.parted w (s.window w).extents (s.closePorts cause forced w) (s.closeRecord forced w) := rfl

theorem State.recordLeft_closeRecord {o : Port} (ho : (s.window w).owner = some o) :
    s.RecordLeft w (s.window w).extents o (s.closeRecord forced w (s.window w)) :=
  ⟨s.drain_union_drainFormed w _, s.retiringWith_eq_retiringAfter w _, ho⟩

theorem Grant.atClose_eq_closed (forced : Bool) (k : GSlot) (g : Grant) : g.atClose forced k = g.closed forced k := by
  cases g with
  | active a r b => simp only [Grant.atClose, Grant.closed, Bool.not_eq_true']
  | revoked | offered | vacant => rfl

theorem State.closeRecord_self : s.closeRecord forced w (s.window w) =
    { s.window w with
      state := .draining, extents := [], closedLen := (s.window w).extents.length
      grants := (s.window w).grantsClosed forced, drain := s.drainAfter w (s.window w).extents
      retiring := s.retiringAfter w (s.window w).extents } := by
  rw [State.closeRecord, s.drain_union_drainFormed, s.retiringWith_eq_retiringAfter, Window.grantsClosed]
  simp only [Grant.atClose_eq_closed]

/-- The record after a close is the rules' (R89 to R91, R94). -/
theorem State.endIfEmpty_closeRecord :
    (s.closeRecord forced w (s.window w)).endIfEmpty = s.closedRecord forced w := by
  rw [State.closeRecord_self, Window.endIfEmpty, Window.afterDrain_eq_ended]
  by_cases hd : s.drainAfter w (s.window w).extents = DrainSet.empty
  · simp only [State.closedRecord, Window.ended, hd, if_true, ne_eq, not_true_eq_false, if_false]
    rfl
  · simp only [State.closedRecord, hd, if_false, ne_eq, not_false_eq_true, if_true]

theorem Window.losesView_iff {x : Window} {q : Port} : x.losesView forced q = true ↔
    ∃ j r b, x.grant j = .active q r b ∧ (j ≠ 0 ∨ forced = true) := by
  have hgrant : ∀ j, ((x.grant j).isActive && (x.grant j).isOf q) = true ↔ ∃ r b, x.grant j = .active q r b := by
    intro j
    cases x.grant j <;> simp [Grant.isActive, Grant.isOf, Grant.agent]
  simp only [Window.losesView, List.any_eq_true, List.mem_finRange, true_and, Bool.and_eq_true (_ && _), hgrant]
  refine exists_congr fun j => ?_
  cases forced <;> simp

theorem Window.offers_iff {x : Window} {q : Port} :
    x.offers q = true ↔ ∃ j r n, x.grant j = .offered q r n := by
  simp only [Window.offers, Window.anyGrant, List.any_eq_true, List.mem_finRange, true_and]
  refine exists_congr fun j => ?_
  cases x.grant j <;> simp [Grant.isOffered, Grant.isOf, Grant.agent]

theorem State.get_closePorts (q : Port) : Tab.get (s.closePorts cause forced w) q =
    { (s.loseExtents w (s.window w).extents).port q with
      attention := KindSet.addIf ((s.window w).offers q && decide (q ≠ cause))
        (KindSet.addIf ((s.window w).losesView forced q && decide (q ≠ cause))
          ((s.loseExtents w (s.window w).extents).port q).attention .views) .offers } := by
  refine (State.port_addAttentionWhere _ _ q .offers).trans ?_
  rw [State.port_addAttentionWhere]

/-- What a close tells the ports before the end of its drain (R90, R149). -/
theorem State.has_closePorts (q : Port) (k : Kind) :
    KindSet.has (Tab.get (s.closePorts cause forced w) q).attention k = true ↔
      KindSet.has (s.port q).attention k = true ∨
      (q = s.supervisor ∧ k = .moved ∧ s.targetLeaving (s.window w).extents ≠ []) ∨
      (q ≠ cause ∧ k = .views ∧ ∃ j r b, (s.window w).grant j = .active q r b ∧ (j ≠ 0 ∨ forced = true)) ∨
      (q ≠ cause ∧ k = .offers ∧ ∃ j r n, (s.window w).grant j = .offered q r n) := by
  rw [State.get_closePorts, ← Window.losesView_iff, ← Window.offers_iff]
  simp only [KindSet.has_addIf, Bool.or_eq_true, Bool.and_eq_true, decide_eq_true_eq, State.has_loseExtents]
  tauto

theorem State.leavesOthers_closeWindow {o : Port} (ho : (s.window w).owner = some o) :
    LeavesOthers s (s.closeWindow cause forced w) s.lastServed w :=
  State.leavesOthers_parted (ports := s.closePorts cause forced w) (State.recordLeft_closeRecord ho) fun q => by
    rw [State.get_closePorts, State.port_loseExtents_eq]

theorem State.extentsLeft_closeWindow {o : Port} (ho : (s.window w).owner = some o) (hwait : s.Waiting w) :
    ExtentsLeft s (s.closeWindow cause forced w) w (s.window w).extents :=
  State.extentsLeft_parted (State.recordLeft_closeRecord ho) hwait

theorem State.window_closeWindow_self :
    (s.closeWindow cause forced w).window w = s.closedRecord forced w := by
  rw [State.closeWindow_eq_parted, State.window_parted, if_pos rfl, State.endIfEmpty_closeRecord]

theorem State.adds_closeWindow {o : Port} (ho : (s.window w).owner = some o) :
    Adds s (s.closeWindow cause forced w) fun q k =>
      (q = o ∧ k = .drained ∧ s.drainAfter w (s.window w).extents = DrainSet.empty) ∨
      (q = s.supervisor ∧ k = .moved ∧ s.targetLeaving (s.window w).extents ≠ []) ∨
      (q ≠ cause ∧ k = .views ∧ ∃ j r b, (s.window w).grant j = .active q r b ∧ (j ≠ 0 ∨ forced = true)) ∨
      (q ≠ cause ∧ k = .offers ∧ ∃ j r n, (s.window w).grant j = .offered q r n) :=
  State.adds_parted (State.recordLeft_closeRecord ho) State.has_closePorts

/-- A close of an owned window, taken for port `p`, is what the rules say (R76, R89 to R91, R94, R166). -/
theorem State.closed_closeWindow {o : Port} (ho : (s.window w).owner = some o) (hwait : s.Waiting w) :
    Closed s ((s.served p).closeWindow p forced w) p forced w o :=
  ⟨State.leavesOthers_closeWindow (s := s.served p) ho, State.extentsLeft_closeWindow (s := s.served p) ho hwait,
    State.window_closeWindow_self (s := s.served p), State.adds_closeWindow (s := s.served p) ho⟩

/-- Settles O21: the checks of the verdict are those of the table, and the close is that of the rules. -/
theorem closeEndsWindow : Obligations.CloseEndsWindow := by
  intro p s hdue
  refine ⟨fun hnone => ?_, fun w hw => ?_⟩
  · exact exec_of_refuse rfl rfl hdue (closeVerdict_noWindow (s := s.served p) hnone)
  have hjudged := closeVerdict_eq_judged (s := s.served p) hw
  have hrefuse : ∀ {st : Status}, s.closeStatus p w = st → st ≠ .ok →
      exec (.close p) s = .next (s.answered p st Words4.zero) := by
    rintro st rfl hne
    exact exec_of_refuse rfl rfl hdue (hjudged.trans (Verdict.judged_of_ne hne _))
  refine ⟨fun ho => ?_, fun ho hs => ?_, fun ho hs hwait => ?_⟩
  · exact hrefuse (if_pos ho) nofun
  · exact hrefuse (by rw [State.closeStatus, if_neg (not_not.2 ho), if_pos hs]) nofun
  · have hok : s.closeStatus p w = .ok := by rw [State.closeStatus, if_neg (not_not.2 ho), if_neg (not_not.2 hs)]
    have hclosed := State.closed_closeWindow (p := p) (forced := false) ho hwait
    exact ⟨_, exec_of_settled rfl rfl hdue (congrArg State.lastServed hclosed.1.1)
      (hjudged.trans (Verdict.judged_of_ok hok _)), hclosed⟩

end Close

end Sys2Proof.Machine
end
section
/-!
Grant slots of a window and the words that name agents, slots and offers (R7, R10, R99, R115, R177): which slot is an
agent's, which offer stands for it, and what a slot set anew leaves.
-/

namespace Sys2Proof.Machine

section Arguments

variable {a : Word}

theorem portArg_of_eq {q : Port} (h : a.toNat = q.val) : portArg a = some q := by
  have hlt : a.toNat < 6 := by omega
  rw [portArg, dif_pos hlt, Option.some.injEq, Fin.ext_iff]
  exact h

theorem portArg_of_le (h : 6 ≤ a.toNat) : portArg a = none := by
  rw [portArg, dif_neg (Nat.not_lt.2 h)]

theorem grantSlotArg_of_eq {k : GSlot} (h : a.toNat = k.val) : grantSlotArg a = some k := portArg_of_eq h

theorem grantSlotArg_of_le (h : 6 ≤ a.toNat) : grantSlotArg a = none := portArg_of_le h

theorem rightsArg_of_le (h : a.toNat ≤ 1) :
    rightsArg a = some (if a.toNat = 0 then .read else .readWrite) := by
  by_cases h0 : a.toNat = 0
  · rw [rightsArg, if_pos h0, if_pos h0]
  · rw [rightsArg, if_neg h0, if_pos (by omega), if_neg h0]

theorem rightsArg_of_lt (h : ¬ a.toNat ≤ 1) : rightsArg a = none := by
  rw [rightsArg, if_neg (by omega), if_neg (by omega)]

theorem lifetimeArg_of_le (h : a.toNat ≤ 255) :
    lifetimeArg a = some (if a.toNat = 0 then none else some a.toNat) := by
  by_cases h0 : a.toNat = 0
  · rw [lifetimeArg, if_pos h0, if_pos h0]
  · rw [lifetimeArg, if_neg h0, if_pos h, if_neg h0]

theorem lifetimeArg_of_lt (h : ¬ a.toNat ≤ 255) : lifetimeArg a = none := by
  rw [lifetimeArg, if_neg (by omega), if_neg h]

end Arguments

section CheckLists

variable {ok : Bool} {st : Status} {l : List (Bool × Status)} {v : Verdict}

/-- The first check that fails gives the status (R72). -/
theorem checks_fail (h : ok = false) : checks ((ok, st) :: l) v = .refuse st := by
  rw [h]
  rfl

/-- A check that passes leaves the answer to the next (R72). -/
theorem checks_pass (h : ok = true) : checks ((ok, st) :: l) v = checks l v := by
  rw [h]
  rfl

end CheckLists

section Slots

variable {x : Window} {a : Port} {j k : GSlot} {r : Rights} {n : Option Nat} {b : Nat}

theorem Grant.isOf_iff (g : Grant) (a : Port) : g.isOf a = true ↔ g.agent = some a := decide_eq_true_iff

theorem Window.isOf_of_slotOf (h : x.slotOf a = some k) : (x.grant k).isOf a = true :=
  (Grant.isOf_iff _ a).2 (slotOf_some h)

theorem Window.slotOf_eq_none_iff : x.slotOf a = none ↔ ∀ k, (x.grant k).isOf a = false := by
  simp [Window.slotOf]

/-- With one slot to each agent, the slot found is the agent's (R10). -/
theorem Window.OneSlotEach.slotOf_eq (hone : x.OneSlotEach) (h : (x.grant k).isOf a = true) :
    x.slotOf a = some k := by
  cases hslot : x.slotOf a with
  | none => simp [Window.slotOf_eq_none_iff.1 hslot k] at h
  | some j => rw [hone j k a (Window.isOf_of_slotOf hslot) h]

@[simp] theorem Grant.isOf_offered : (Grant.offered a r n).isOf a = true := decide_eq_true rfl

@[simp] theorem Grant.isOf_active : (Grant.active a r b).isOf a = true := decide_eq_true rfl

/-- The agent's OFFERED slot in a window, and the rights it offers. -/
def Window.offerTo (x : Window) (a : Port) : Option (GSlot × Rights) :=
  (x.slotOf a).bind fun k =>
    match x.grant k with
    | .offered _ r _ => some (k, r)
    | .vacant => none
    | .active _ _ _ => none
    | .revoked _ _ _ => none

theorem Window.offerTo_of_noSlot (h : x.slotOf a = none) : x.offerTo a = none := by
  rw [Window.offerTo, h, Option.bind_none]

theorem Window.offerTo_of_offered {q : Port} (h : x.slotOf a = some k) (hk : x.grant k = .offered q r n) :
    x.offerTo a = some (k, r) := by
  rw [Window.offerTo, h, Option.bind_some, hk]

theorem Window.offerTo_of_not_offered (h : x.slotOf a = some k) (hk : (x.grant k).isOffered = false) :
    x.offerTo a = none := by
  rw [Window.offerTo, h, Option.bind_some]
  cases hg : x.grant k with
  | offered => rw [hg] at hk; cases hk
  | vacant | active | revoked => rfl

theorem Window.OneSlotEach.offerTo_eq (hone : x.OneSlotEach) (hk : x.grant k = .offered a r n) :
    x.offerTo a = some (k, r) :=
  Window.offerTo_of_offered (hone.slotOf_eq (by rw [hk, Grant.isOf_offered])) hk

/-- An agent to whom nothing is offered has no OFFERED slot. -/
theorem Window.isOffered_eq_false (hslot : x.slotOf a = some k) (h : ∀ k r n, x.grant k ≠ .offered a r n) :
    (x.grant k).isOffered = false := by
  have hagent := slotOf_some hslot
  cases hg : x.grant k with
  | offered q r n =>
    rw [hg] at hagent
    cases hagent
    exact absurd hg (h k r n)
  | vacant | active | revoked => rfl

theorem Window.offerTo_eq_none (h : ∀ k r n, x.grant k ≠ .offered a r n) : x.offerTo a = none := by
  cases hslot : x.slotOf a with
  | none => exact Window.offerTo_of_noSlot hslot
  | some k => exact Window.offerTo_of_not_offered hslot (Window.isOffered_eq_false hslot h)

end Slots

section Regranted

variable (s : State) (w : WSlot) (k : GSlot) (g : Grant)

theorem State.setGrant_eq_withGrant : s.setGrant w k g = s.withGrant w k g := rfl

theorem State.window_withGrant (v : WSlot) :
    (s.withGrant w k g).window v = if v = w then (s.window v).setGrant k g else s.window v :=
  State.window_updWindow s w v _

@[simp] theorem State.state_withGrant (v : WSlot) : ((s.withGrant w k g).window v).state = (s.window v).state := by
  rw [State.window_withGrant]
  split <;> rfl

@[simp] theorem State.owner_withGrant (v : WSlot) : ((s.withGrant w k g).window v).owner = (s.window v).owner := by
  rw [State.window_withGrant]
  split <;> rfl

@[simp] theorem State.extents_withGrant (v : WSlot) :
    ((s.withGrant w k g).window v).extents = (s.window v).extents := by
  rw [State.window_withGrant]
  split <;> rfl

theorem State.grant_withGrant (j : GSlot) :
    ((s.withGrant w k g).window w).grant j = if j = k then g else (s.window w).grant j := by
  rw [State.window_withGrant, if_pos rfl, Window.grant_setGrant]

theorem State.tellOwner_eq_told {o : Port} (ho : (s.window w).owner = some o) : s.tellOwner w = s.told o .grants := by
  rw [State.tellOwner, ho]
  rfl

theorem State.tellOwner_setGrant {o : Port} (ho : (s.window w).owner = some o) :
    (s.setGrant w k g).tellOwner w = (s.withGrant w k g).told o .grants :=
  State.tellOwner_eq_told _ _ ((s.owner_withGrant w k g w).trans ho)

/-- A grant slot set anew changes no count of windows and extents owned (R17). -/
theorem State.ownedBy_withGrant (q : Port) : (s.withGrant w k g).ownedBy q = s.ownedBy q := by
  unfold State.ownedBy
  refine List.filter_congr fun v _ => ?_
  rw [State.state_withGrant, State.owner_withGrant]

theorem State.ownedExtents_withGrant (q : Port) : (s.withGrant w k g).ownedExtents q = s.ownedExtents q := by
  unfold State.ownedExtents
  simp only [State.ownedBy_withGrant, State.extents_withGrant]

/-- A grant slot that is the same view as before, or none as before, changes no count of views held (R17). -/
theorem State.viewsHeld_withGrant (h : g.viewOf = ((s.window w).grant k).viewOf) (q : Port) :
    (s.withGrant w k g).viewsHeld q = s.viewsHeld q := by
  rw [State.viewsHeld_eq, State.viewsHeld_eq]
  refine List.countP_congr fun x _ => ?_
  rw [State.holdsView_iff, State.holdsView_iff, ← State.setGrant_eq_withGrant, State.grantAt_setGrant]
  split
  · next hx => rw [h, hx, State.grantAt]
  · rfl

end Regranted

end Sys2Proof.Machine
end
section
/-!
OFFER, WITHDRAW, ACCEPT, DECLINE and REVOKE in the rules' own terms (R99 to R103, R106, R107): what each verdict is past
its handle, and the statements about them.
-/

namespace Sys2Proof.Machine

section Offer

variable {s : State} {p : Port} {w : WSlot} {a : Port} {k : GSlot}

/-- The effect of an OFFER whose checks have passed, by its arguments (R100). -/
def State.offering (s : State) (p : Port) (w : WSlot) : Verdict :=
  match portArg (s.args p).w1, rightsArg (s.args p).w2, lifetimeArg (s.args p).w3 with
  | some a, some r, some life => s.makeOffer w a r life
  | _, _, _ => .refuse .badRange

theorem offerVerdict_noWindow (h : validHandle s (s.args p).w0 = none) : offerVerdict p s = .refuse .noWindow := by
  unfold offerVerdict
  rw [h]

/-- A condition on the port that an argument names. -/
theorem exists_port_iff (P : Port → Prop) : (∃ q : Port, q.val = a.val ∧ P q) ↔ P a := by
  constructor
  · rintro ⟨q, hq, h⟩
    rwa [← Fin.ext hq]
  · exact fun h => ⟨a, rfl, h⟩

/-- OFFER of a window answers as its table says (R99, R100). -/
theorem offerVerdict_eq_judged (hw : validHandle s (s.args p).w0 = some w) : offerVerdict p s =
    (s.offering p w).judged
      (s.offerStatus p w (s.args p).w1.toNat (s.args p).w2.toNat (s.args p).w3.toNat) := by
  unfold offerVerdict State.offering State.offerStatus
  rw [hw]
  by_cases ha : (s.args p).w1.toNat < 6
  swap
  · rw [portArg_of_le (Nat.not_lt.1 ha), if_pos ha]
    rfl
  obtain ⟨a, hname⟩ : ∃ a : Port, (s.args p).w1.toNat = a.val := ⟨⟨_, ha⟩, rfl⟩
  rw [if_neg (not_not.2 ha), portArg_of_eq hname, hname]
  simp only [exists_port_iff]
  by_cases ho : (s.window w).owner = some a
  · simp only [if_pos ho]
    rfl
  by_cases hr : (s.args p).w2.toNat ≤ 1
  swap
  · simp only [if_neg ho, rightsArg_of_lt hr, if_pos hr]
    rfl
  by_cases hn : (s.args p).w3.toNat ≤ 255
  swap
  · simp only [if_neg ho, rightsArg_of_le hr, lifetimeArg_of_lt hn, if_neg (not_not.2 hr), if_pos hn]
    rfl
  simp only [if_neg ho, rightsArg_of_le hr, lifetimeArg_of_le hn, if_neg (not_not.2 hr), if_neg (not_not.2 hn)]
  have hslot : decide ((s.window w).slotOf a = none) = false ↔ ∃ k, ((s.window w).grant k).isOf a = true := by
    rw [decide_eq_false_iff_not, Window.slotOf_eq_none_iff]
    simp only [not_forall, Bool.not_eq_false]
  exact checks_cons_judged nofun decide_eq_false_iff_not <|
    checks_cons_judged nofun decide_eq_false_iff_not <|
    checks_cons_judged nofun (by rw [Bool.not_eq_false']) <|
    checks_cons_judged nofun hslot rfl

/-- The lowest VACANT slot among 1 to 5 (R100). -/
theorem Window.vacantGrant_eq {x : Window} (hk : k ≠ 0) (hv : x.grant k = .vacant)
    (hlow : ∀ j, j ≠ 0 → j < k → x.grant j ≠ .vacant) : x.vacantGrant = some k := by
  rw [Window.vacantGrant, ← Fin.find?_eq_find?_finRange, Fin.find?_eq_some_iff]
  refine ⟨by simp [hk, hv], fun j hj => ?_⟩
  by_cases h0 : j = 0
  · simp [h0]
  · simp [hlow j h0 hj]

theorem State.offering_eq (ha : (s.args p).w1.toNat = a.val) (hr : (s.args p).w2.toNat ≤ 1)
    (hn : (s.args p).w3.toNat ≤ 255) (hk : (s.window w).vacantGrant = some k) :
    s.offering p w = .finished
      ((s.withGrant w k (.offered a (if (s.args p).w2.toNat = 0 then .read else .readWrite)
        (if (s.args p).w3.toNat = 0 then none else some (s.args p).w3.toNat))).told a .offers)
      (Words4.one (numWord k.val)) := by
  simp only [State.offering, portArg_of_eq ha, rightsArg_of_le hr, lifetimeArg_of_le hn, State.makeOffer, hk]
  rfl

/-- An OFFER that passes its table has rights and a lifetime in range (R99). -/
theorem State.args_of_offerStatus {a r n : Nat} (h : s.offerStatus p w a r n = .ok) : r ≤ 1 ∧ n ≤ 255 := by
  unfold State.offerStatus at h
  by_cases hr : r ≤ 1
  · by_cases hn : n ≤ 255
    · exact ⟨hr, hn⟩
    · split_ifs at h
  · split_ifs at h

/-- Settles O23: past its handle OFFER answers as the table says, and the lowest VACANT slot takes the offer. -/
theorem offerInvitesAgent : Obligations.OfferInvitesAgent := by
  intro p s hdue
  refine ⟨fun hnone => ?_, ?_⟩
  · exact exec_of_refuse rfl rfl hdue (offerVerdict_noWindow (s := s.served p) hnone)
  rintro w st hw rfl
  have hjudged := offerVerdict_eq_judged (s := s.served p) hw
  refine ⟨fun hne => ?_, fun hok a k ha hk hv hlow => ?_⟩
  · exact exec_of_refuse rfl rfl hdue (hjudged.trans (Verdict.judged_of_ne hne _))
  · obtain ⟨hr, hn⟩ := State.args_of_offerStatus hok
    have hmade := State.offering_eq (s := s.served p) ha hr hn (Window.vacantGrant_eq hk hv hlow)
    exact exec_of_finished rfl rfl hdue (hjudged.trans ((Verdict.judged_of_ok hok _).trans hmade))

end Offer

section Withdraw

variable {s : State} {p a : Port} {w : WSlot} {k : GSlot} {r : Rights}

/-- The effect of a WITHDRAW by the owner of an OPEN window (R106). -/
def State.withdrawing (s : State) (w : WSlot) (a : Port) : Verdict :=
  match (s.window w).offerTo a with
  | none => .refuse .state
  | some (k, _) => .finished ((s.withGrant w k .vacant).told a .offers) Words4.zero

theorem withdrawVerdict_noWindow (h : validHandle s (s.args p).w0 = none) :
    withdrawVerdict p s = .refuse .noWindow := by
  unfold withdrawVerdict
  rw [h]

theorem withdrawVerdict_badRange (hw : validHandle s (s.args p).w0 = some w) (ha : 6 ≤ (s.args p).w1.toNat) :
    withdrawVerdict p s = .refuse .badRange := by
  unfold withdrawVerdict
  simp only [hw, portArg_of_le ha]

theorem withdrawVerdict_eq (hw : validHandle s (s.args p).w0 = some w) (ha : (s.args p).w1.toNat = a.val) :
    withdrawVerdict p s =
      checks [(decide ((s.window w).owner = some p), .noRight), (decide ((s.window w).state = .opened), .state)]
        (s.withdrawing w a) := by
  unfold withdrawVerdict State.withdrawing
  simp only [hw, portArg_of_eq ha]
  congr 1
  cases hslot : (s.window w).slotOf a with
  | none => simp only [Window.offerTo_of_noSlot hslot]
  | some k =>
    cases hg : (s.window w).grant k with
    | offered q r n => simp only [Window.offerTo_of_offered hslot hg, hg]; rfl
    | vacant | active | revoked =>
      simp only [Window.offerTo_of_not_offered hslot (by rw [hg]; rfl), hg]
      rfl

theorem State.withdrawing_none (h : (s.window w).offerTo a = none) : s.withdrawing w a = .refuse .state := by
  rw [State.withdrawing, h]

theorem State.withdrawing_some (h : (s.window w).offerTo a = some (k, r)) :
    s.withdrawing w a = .finished ((s.withGrant w k .vacant).told a .offers) Words4.zero := by
  rw [State.withdrawing, h]

/-- Settles O25: the owner, then the window's state, then the agent's offer are checked, and the offer is vacated. -/
theorem withdrawEndsOffer : Obligations.WithdrawEndsOffer := by
  intro p s hdue
  refine ⟨fun hnone => ?_, fun w hw hone => ⟨fun hrange => ?_, fun a ha => ?_⟩⟩
  · exact exec_of_refuse rfl rfl hdue (withdrawVerdict_noWindow (s := s.served p) hnone)
  · exact exec_of_refuse rfl rfl hdue (withdrawVerdict_badRange (s := s.served p) hw hrange)
  have hverdict := withdrawVerdict_eq (s := s.served p) hw ha
  have hpassed : (s.window w).owner = some p → (s.window w).state = .opened →
      withdrawVerdict p (s.served p) = (s.served p).withdrawing w a := fun ho hs =>
    hverdict.trans ((checks_pass (decide_eq_true ho)).trans (checks_pass (decide_eq_true hs)))
  refine ⟨fun ho => ?_, fun ho hs => ?_, fun ho hs hnone => ?_, fun ho hs k r n hk => ?_⟩
  · exact exec_of_refuse rfl rfl hdue (hverdict.trans (checks_fail (decide_eq_false ho)))
  · exact exec_of_refuse rfl rfl hdue
      (hverdict.trans ((checks_pass (decide_eq_true ho)).trans (checks_fail (decide_eq_false hs))))
  · exact exec_of_refuse rfl rfl hdue
      ((hpassed ho hs).trans (State.withdrawing_none (s := s.served p) (Window.offerTo_eq_none hnone)))
  · exact exec_of_finished rfl rfl hdue
      ((hpassed ho hs).trans (State.withdrawing_some (s := s.served p) (hone.offerTo_eq hk)))

end Withdraw

section Accept

variable {s : State} {p : Port} {w : WSlot} {k : GSlot} {r : Rights} {o : Port}

/-- The answer to an ACCEPT at a base that view space allows (R101, R102). -/
def State.accepting (s : State) (p : Port) (w : WSlot) (base : Nat) : Verdict :=
  match (s.window w).offerTo p with
  | none => .refuse .noOffer
  | some (k, r) =>
    checks
      [(decide (s.viewsHeld p < 16), .viewLimit),
       (s.fits base (s.window w).extents.length, .badRange),
       (!(s.viewsOf p).any (s.meets base (s.window w).extents.length), .overlap)] <|
    .finished ((s.setGrant w k (.active p r base)).tellOwner w)
      { w0 := numWord (s.window w).extents.length, w1 := numWord r.code, w2 := 0, w3 := 0 }

theorem acceptVerdict_noWindow (h : validHandle s (s.args p).w0 = none) : acceptVerdict p s = .refuse .noWindow := by
  unfold acceptVerdict
  rw [h]

theorem acceptVerdict_eq (hw : validHandle s (s.args p).w0 = some w) :
    acceptVerdict p s =
      checks [(s.baseOk (s.args p).w1.toNat, .badRange)] (s.accepting p w (s.args p).w1.toNat) := by
  unfold acceptVerdict State.accepting
  simp only [hw]
  congr 1
  cases hslot : (s.window w).slotOf p with
  | none => simp only [Window.offerTo_of_noSlot hslot]
  | some k =>
    cases hg : (s.window w).grant k with
    | offered q r n => simp only [Window.offerTo_of_offered hslot hg, hg]
    | vacant | active | revoked => simp only [Window.offerTo_of_not_offered hslot (by rw [hg]; rfl), hg]

theorem State.accepting_none {base : Nat} (h : (s.window w).offerTo p = none) :
    s.accepting p w base = .refuse .noOffer := by
  rw [State.accepting, h]

theorem State.accepting_some {base : Nat} (h : (s.window w).offerTo p = some (k, r)) :
    s.accepting p w base =
      checks
        [(decide (s.viewsHeld p < 16), .viewLimit),
         (s.fits base (s.window w).extents.length, .badRange),
         (!(s.viewsOf p).any (s.meets base (s.window w).extents.length), .overlap)]
        (.finished ((s.setGrant w k (.active p r base)).tellOwner w)
          { w0 := numWord (s.window w).extents.length, w1 := numWord r.code, w2 := 0, w3 := 0 }) := by
  rw [State.accepting, h]

/-- Settles O26: base, offer, number of views, end of the view and overlap are checked, and the offer becomes a view. -/
theorem acceptMakesView : Obligations.AcceptMakesView := by
  intro p s hdue
  refine ⟨fun hnone => ?_, ?_⟩
  · exact exec_of_refuse rfl rfl hdue (acceptVerdict_noWindow (s := s.served p) hnone)
  rintro w base hw hone rfl
  have hverdict := acceptVerdict_eq (s := s.served p) hw
  refine ⟨fun hbase => ?_, fun hlow halign => ?_⟩
  · exact exec_of_refuse rfl rfl hdue
      (hverdict.trans (checks_fail (by rwa [← Bool.not_eq_true, State.baseOk_iff])))
  have hpassed := hverdict.trans (checks_pass ((State.baseOk_iff _ _).2 ⟨hlow, halign⟩))
  refine ⟨fun hnone => ?_, fun k r n hk => ?_⟩
  · exact exec_of_refuse rfl rfl hdue
      (hpassed.trans (State.accepting_none (s := s.served p) (Window.offerTo_eq_none hnone)))
  have hoffer := hpassed.trans (State.accepting_some (s := s.served p) (hone.offerTo_eq hk))
  refine ⟨fun hheld => ?_, fun hheld hend => ?_, fun hheld hend => ?_⟩
  · exact exec_of_refuse rfl rfl hdue (hoffer.trans (checks_fail (decide_eq_false (Nat.not_lt.2 hheld))))
  · have hfits : (s.served p).fits (s.args p).w1.toNat (s.window w).extents.length = false := by
      rwa [← Bool.not_eq_true, State.fits_iff, not_le]
    exact exec_of_refuse rfl rfl hdue
      (hoffer.trans ((checks_pass (decide_eq_true hheld)).trans (checks_fail hfits)))
  have hroom := hoffer.trans
    ((checks_pass (decide_eq_true hheld)).trans (checks_pass ((State.fits_iff _ _ _).2 hend)))
  refine ⟨fun hmeets => ?_, fun o hapart ho => ?_⟩
  · exact exec_of_refuse rfl rfl hdue
      (hroom.trans (checks_fail (by rw [Bool.not_eq_false', State.any_meets_iff]; exact hmeets)))
  · have hclear := hroom.trans
      (checks_pass (by rw [Bool.not_eq_true', ← Bool.not_eq_true, State.any_meets_iff]; push Not; exact hapart))
    have htold := State.tellOwner_setGrant (s.served p) w k (.active p r (s.args p).w1.toNat) ho
    cases r with
    | read | readWrite =>
      exact exec_of_finished rfl rfl hdue (hclear.trans (congrArg (Verdict.finished · _) htold))

end Accept

section Decline

variable {s : State} {p : Port} {w : WSlot} {k : GSlot} {r : Rights} {o : Port}

theorem declineVerdict_noWindow (h : validHandle s (s.args p).w0 = none) :
    declineVerdict p s = .refuse .noWindow := by
  unfold declineVerdict
  rw [h]

theorem declineVerdict_noOffer (hw : validHandle s (s.args p).w0 = some w)
    (hnone : ∀ k r n, (s.window w).grant k ≠ .offered p r n) : declineVerdict p s = .refuse .noOffer := by
  unfold declineVerdict
  simp only [hw]
  cases hslot : (s.window w).slotOf p with
  | none => rfl
  | some k => exact checks_fail (Window.isOffered_eq_false hslot hnone)

theorem declineVerdict_finished (hw : validHandle s (s.args p).w0 = some w) (hone : (s.window w).OneSlotEach)
    {n : Option Nat} (hk : (s.window w).grant k = .offered p r n) (ho : (s.window w).owner = some o) :
    declineVerdict p s = .finished ((s.withGrant w k .vacant).told o .grants) Words4.zero := by
  unfold declineVerdict
  simp only [hw, hone.slotOf_eq (by rw [hk, Grant.isOf_offered]), s.tellOwner_setGrant w k .vacant ho]
  exact checks_pass (by rw [hk]; rfl)

/-- Settles O27: the caller's offer is checked and vacated; with one slot to each agent it has none afterwards. -/
theorem declineVacatesOffer : Obligations.DeclineVacatesOffer := by
  intro p s hdue
  refine ⟨fun hnone => ?_, fun w hw hone => ⟨fun hnone => ?_, fun o k r n ho hk => ⟨?_, fun q => ?_, fun j => ?_⟩⟩⟩
  · exact exec_of_refuse rfl rfl hdue (declineVerdict_noWindow (s := s.served p) hnone)
  · exact exec_of_refuse rfl rfl hdue (declineVerdict_noOffer (s := s.served p) hw hnone)
  · exact exec_of_finished rfl rfl hdue (declineVerdict_finished (s := s.served p) hw hone hk ho)
  · exact ⟨congrArg List.length (s.ownedBy_withGrant w k .vacant q), s.ownedExtents_withGrant w k .vacant q,
      s.viewsHeld_withGrant w k .vacant (by rw [hk]; rfl) q⟩
  · rw [State.grant_withGrant]
    split
    · rfl
    · next hj => exact Bool.eq_false_iff.2 fun hof => hj (hone j k p hof (by rw [hk, Grant.isOf_offered]))

end Decline

section Revoke

/-- The finish of a command at its take, by port (R67, R68). -/
theorem State.port_answered (s : State) (p q : Port) (st : Status) (res : Words4) :
    (s.answered p st res).port q =
      if q = p then
        { s.port q with slot := { (s.port q).slot with state := .done st, res := res }
                        attention := KindSet.add (s.port q).attention .done }
      else s.port q := State.port_updPort s p q _

variable {s : State} {p a o : Port} {w : WSlot} {k : GSlot} {r : Rights} {b : Nat}

/-- The answer to a REVOKE by a party that may, in an OPEN window (R107). -/
def State.revoking (s : State) (p : Port) (w : WSlot) (a : Port) : Verdict :=
  match (s.window w).slotOf a with
  | none => .refuse .state
  | some k =>
    checks [(((s.window w).grant k).isActive, .state)] <|
    .finished ((s.setGrant w k ((s.window w).grant k).revoke).tellRevoked p a (s.window w).owner) Words4.zero

theorem revokeVerdict_noWindow (h : validHandle s (s.args p).w0 = none) :
    revokeVerdict p s = .refuse .noWindow := by
  unfold revokeVerdict
  rw [h]

theorem revokeVerdict_noAgent (hw : validHandle s (s.args p).w0 = some w) (ha : 6 ≤ (s.args p).w1.toNat) :
    revokeVerdict p s = .refuse .badRange := by
  unfold revokeVerdict
  simp only [hw, portArg_of_le ha]

theorem revokeVerdict_eq (hw : validHandle s (s.args p).w0 = some w) (ha : (s.args p).w1.toNat = a.val) :
    revokeVerdict p s =
      checks
        [(decide ((s.window w).owner ≠ some a), .badRange),
         (decide ((s.window w).owner = some p) || s.privileged p, .noRight),
         (decide ((s.window w).state = .opened), .state)]
        (s.revoking p w a) := by
  unfold revokeVerdict
  simp only [hw, portArg_of_eq ha]
  rfl

theorem State.revoking_not_active (hnone : ∀ k r b, (s.window w).grant k ≠ .active a r b) :
    s.revoking p w a = .refuse .state := by
  unfold State.revoking
  cases hslot : (s.window w).slotOf a with
  | none => rfl
  | some k =>
    refine checks_fail ?_
    have hagent := slotOf_some hslot
    cases hg : (s.window w).grant k with
    | active q r b =>
      rw [hg] at hagent
      cases hagent
      exact absurd hg (hnone k r b)
    | vacant | offered | revoked => rfl

theorem State.revoking_active (hone : (s.window w).OneSlotEach) (hk : (s.window w).grant k = .active a r b)
    (ho : (s.window w).owner = some o) :
    s.revoking p w a =
      .finished ((s.withGrant w k (.revoked a r b)).tellRevoked p a (some o)) Words4.zero := by
  unfold State.revoking
  simp only [hone.slotOf_eq (by rw [hk, Grant.isOf_active]), hk, ho]
  rfl

/-- The ports' records after a REVOKE by `p` in a window of `o` (R68, R76, R107; log 20). -/
theorem State.port_revoked (s : State) (p a o q : Port) :
    State.port (State.answered (s.tellRevoked p a (some o)) p .ok Words4.zero) q =
      { s.port q with
        slot := if q = p then { (s.port q).slot with state := .done .ok, res := Words4.zero } else (s.port q).slot
        attention := KindSet.addIf (decide (q = p))
          (KindSet.addIf (decide (o = q) && decide (q ≠ p))
            (KindSet.addIf (decide (q = a) && decide (q ≠ p)) (s.port q).attention .views) .grants) .done } := by
  rw [State.port_answered, State.tellRevoked, State.port_addAttentionWhere, State.port_addAttentionWhere]
  simp only [Option.some.injEq]
  by_cases hq : q = p
  · simp only [hq, if_true, decide_true]
    rfl
  · simp only [hq, if_false, decide_false]
    rfl

/-- What a REVOKE by `p` in a window of `o` tells the ports (R68, R76, R107; log 20). -/
theorem State.adds_revoked (s : State) (p a o : Port) :
    Adds s (State.answered (s.tellRevoked p a (some o)) p .ok Words4.zero) fun q x =>
      (q = p ∧ x = .done) ∨ (q = a ∧ a ≠ p ∧ x = .views) ∨ (q = o ∧ o ≠ p ∧ x = .grants) := by
  intro q x
  have hgrantee : q = a ∧ a ≠ p ↔ q = a ∧ q ≠ p := and_congr_right (by rintro rfl; rfl)
  have howner : q = o ∧ o ≠ p ↔ o = q ∧ q ≠ p := by rw [eq_comm]; exact and_congr_right (by rintro rfl; rfl)
  rw [State.port_revoked]
  simp only [KindSet.has_addIf, Bool.or_eq_true, Bool.and_eq_true, decide_eq_true_eq, ← hgrantee, ← howner, and_assoc,
    or_assoc]
  rw [← or_assoc (a := q = a ∧ _), or_comm (b := q = p ∧ _)]

/-- Settles O28: agent, privilege and the window's state are checked, and the ACTIVE slot is REVOKED in place. -/
theorem revokeEndsAccess : Obligations.RevokeEndsAccess := by
  intro p s hdue
  refine ⟨fun hnone => ?_, fun w o hw ho hone => ⟨fun hrange => ?_, fun a ha hao => ?_⟩⟩
  · exact exec_of_refuse rfl rfl hdue (revokeVerdict_noWindow (s := s.served p) hnone)
  · rcases hrange with hrange | howner
    · exact exec_of_refuse rfl rfl hdue (revokeVerdict_noAgent (s := s.served p) hw hrange)
    · exact exec_of_refuse rfl rfl hdue
        ((revokeVerdict_eq (s := s.served p) hw howner).trans (checks_fail (decide_eq_false (not_not.2 ho))))
  have hother : (s.window w).owner ≠ some a := fun h => hao (Option.some.inj (h.symm.trans ho))
  have hagent := (revokeVerdict_eq (s := s.served p) hw ha).trans (checks_pass (decide_eq_true hother))
  have hprivilege : (decide (((s.served p).window w).owner = some p) || (s.served p).privileged p) = true ↔
      p = o ∨ p = s.supervisor := by
    rw [Bool.or_eq_true, State.privileged, decide_eq_true_iff, decide_eq_true_iff]
    exact or_congr_left (by rw [show ((s.served p).window w).owner = some o from ho, Option.some.injEq, eq_comm])
  refine ⟨fun hpo hps => ?_, fun hparty hs => ?_, fun hparty hs => ?_⟩
  · exact exec_of_refuse rfl rfl hdue
      (hagent.trans (checks_fail (by rw [← Bool.not_eq_true, hprivilege]; exact not_or.2 ⟨hpo, hps⟩)))
  · exact exec_of_refuse rfl rfl hdue
      (hagent.trans ((checks_pass (hprivilege.2 hparty)).trans (checks_fail (decide_eq_false hs))))
  have hpassed := hagent.trans ((checks_pass (hprivilege.2 hparty)).trans (checks_pass (decide_eq_true hs)))
  refine ⟨fun hnone => ?_, fun k r b hk => ?_⟩
  · exact exec_of_refuse rfl rfl hdue (hpassed.trans (State.revoking_not_active (s := s.served p) hnone))
  · have hexec : exec (.revoke p) s = _ := exec_of_finished
      (t := (s.withGrant w k (.revoked a r b)).tellRevoked p a (some o)) rfl rfl hdue
      (hpassed.trans (State.revoking_active (s := s.served p) hone hk ho))
    have hport := (s.withGrant w k (.revoked a r b)).port_revoked p a o
    refine ⟨_, hexec, ?_, rfl, rfl, fun q hq => ?_, ?_, (s.withGrant w k (.revoked a r b)).adds_revoked p a o⟩
    · rw [FinishedOk, hport, if_pos rfl]
      rfl
    · rw [hport, if_neg hq]
      rfl
    · rw [hport]
      rfl

end Revoke

end Sys2Proof.Machine
end
section
/-!
The read commands in the rules' own terms (R113 to R118, R177): who may read a window, the layouts of the result words,
and which view and which offer an index names.
-/

namespace Sys2Proof.Machine

section ResultWords

variable {w : Word}

/-- What reads 0 outside finer fields reads 0 outside coarser ones that hold them. -/
theorem ZeroOutside.mono {fine coarse : List (Nat × Nat)} (h : ZeroOutside w fine)
    (hsub : ∀ f ∈ fine, ∃ g ∈ coarse, g.1 ≤ f.1 ∧ f.1 + f.2 ≤ g.1 + g.2) : ZeroOutside w coarse := by
  refine fun i hi => h i fun f hf => ?_
  obtain ⟨g, hg, hlo, hhi⟩ := hsub f hf
  have := hi g hg
  omega

/-- A word with one field at its low end is a number of that width. -/
theorem ZeroOutside.toNat_lt {n : Nat} (h : ZeroOutside w [(0, n)]) : w.toNat < 2 ^ n := by
  refine Nat.lt_pow_two_of_testBit _ fun i hi => ?_
  rw [BitVec.testBit_toNat]
  exact h i (by simpa using hi)

theorem packFields_low {n v : Nat} (hv : v < 2 ^ n) : packFields [(0, n, v)] = BitVec.ofNat 32 v := by
  simp [packFields, Nat.mod_eq_of_lt hv]

theorem layout_low {n v : Nat} (hn : n ≤ 32) : Layout [(0, n, v)] := by
  simpa [Layout] using hn

/-- A number of a field's width at the low end of a word reads 0 in every other bit. -/
theorem zeroOutside_numWord {n v : Nat} (hn : n ≤ 32) (hv : v < 2 ^ n) : ZeroOutside (numWord v) [(0, n)] := by
  rw [numWord, ← packFields_low hv]
  exact zeroOutside_packFields (layout_low hn)

theorem WinState.code_eq_windowNumber (x : WinState) : x.code = windowNumber x := by cases x <;> rfl

theorem Grant.code_eq_grantNumber (g : Grant) : g.code = grantNumber g := by cases g <;> rfl

theorem Rights.code_eq_rightsNumber (r : Rights) : r.code = rightsNumber r := by cases r <;> rfl

theorem agentField_eq_portNumber (x : Option Port) : agentField x = portNumber x := by cases x <;> rfl

theorem WinState.code_lt (x : WinState) : x.code < 2 ^ 2 := by cases x <;> decide

theorem Grant.code_lt (g : Grant) : g.code < 2 ^ 2 := by cases g <;> simp [Grant.code]

theorem Rights.code_lt (r : Rights) : r.code < 2 ^ 1 := by cases r <;> decide

theorem agentField_lt (x : Option Port) : agentField x < 2 ^ 3 := by
  cases x with
  | none => decide
  | some p => exact p.isLt.trans (by decide)

end ResultWords

section Window

variable {s : State} {p : Port} {w : WSlot}

theorem State.mayRead_iff : s.mayRead p w = true ↔ s.PartyOrSupervisor p w := by
  have hslot : (s.window w).slotOf p ≠ none ↔ ∃ k, ((s.window w).grant k).isOf p = true := by
    rw [Ne, Window.slotOf_eq_none_iff]
    simp only [not_forall, Bool.not_eq_false]
  rw [State.mayRead, Bool.or_eq_true, Bool.or_eq_true, decide_eq_true_iff, decide_eq_true_iff, hslot, State.privileged,
    decide_eq_true_iff, or_assoc]

theorem readWindowVerdict_noWindow (h : validHandle s (s.args p).w0 = none) :
    readWindowVerdict p s = .refuse .noWindow := by
  unfold readWindowVerdict
  rw [h]

theorem readWindowVerdict_eq (hw : validHandle s (s.args p).w0 = some w) :
    readWindowVerdict p s = checks [(s.mayRead p w, .noRight)] (.finished s (s.windowWords w)) := by
  unfold readWindowVerdict
  rw [hw]

/-- The drain that READ WINDOW shows: that of CLEAR for a window under CLEAR, else the window's own (R114, R171). -/
theorem State.shown_eq {d : DrainSet} {n : Nat}
    (hclear : ∀ c, s.clearRec = some c → w ∈ c.closed → d = c.drain ∧ n = c.retiring.length)
    (hown : s.underClear w = false → d = (s.window w).drain ∧ n = (s.window w).retiring.length) :
    s.shownDrain w = d ∧ s.shownRetiring w = n := by
  unfold State.shownDrain State.shownRetiring
  unfold State.underClear at hown
  cases hrec : s.clearRec with
  | none =>
    obtain ⟨rfl, rfl⟩ := hown (by rw [hrec])
    exact ⟨rfl, rfl⟩
  | some c =>
    by_cases hmem : w ∈ c.closed
    · obtain ⟨rfl, rfl⟩ := hclear c hrec hmem
      exact ⟨if_pos hmem, if_pos hmem⟩
    · obtain ⟨rfl, rfl⟩ := hown (by rw [hrec]; exact decide_eq_false hmem)
      exact ⟨if_neg hmem, if_neg hmem⟩

/-- The fields of a drain set's word (R177). -/
def DrainSet.fields (d : DrainSet) : List (Nat × Nat × Nat) :=
  (6, 1, d.rle.toNat) :: (List.finRange 6).map fun p => (p.val, 1, (d.ports.has p).toNat)

theorem DrainSet.word_eq (d : DrainSet) : d.word = packFields d.fields := rfl

theorem DrainSet.port_mem_fields (d : DrainSet) (q : Port) : (q.val, 1, (d.ports.has q).toNat) ∈ d.fields :=
  List.mem_cons_of_mem _ (List.mem_map_of_mem (List.mem_finRange q))

theorem DrainSet.fields_end {d : DrainSet} {f : Nat × Nat × Nat} (hf : f ∈ d.fields) : f.1 + f.2.1 ≤ 7 := by
  rcases List.mem_cons.1 hf with rfl | hf
  · exact le_rfl
  · obtain ⟨q, -, rfl⟩ := List.mem_map.1 hf
    exact Nat.succ_le_of_lt (q.isLt.trans (by decide))

theorem DrainSet.layout_fields (d : DrainSet) : Layout d.fields := by
  refine ⟨fun f hf => (DrainSet.fields_end hf).trans (by decide), List.pairwise_cons.2 ⟨fun f hf => ?_, ?_⟩⟩
  · obtain ⟨q, -, rfl⟩ := List.mem_map.1 hf
    exact Or.inr q.isLt
  · exact List.pairwise_map.2 ((List.pairwise_lt_finRange 6).imp fun hlt => Or.inl hlt)

theorem DrainSet.zeroOutside_word (d : DrainSet) : ZeroOutside d.word [(0, 7)] := by
  rw [DrainSet.word_eq]
  refine (zeroOutside_packFields d.layout_fields).mono fun f hf => ?_
  obtain ⟨g, hg, rfl⟩ := List.mem_map.1 hf
  exact ⟨(0, 7), by simp, Nat.zero_le _, by simpa using DrainSet.fields_end hg⟩

/-- The fields of the grant slots' word (R177). -/
def Window.grantFields (x : Window) : List (Nat × Nat × Nat) :=
  (List.finRange 6).flatMap fun k =>
    [(5 * k.val, 2, (x.grant k).code), (5 * k.val + 2, 3, agentField (x.grant k).agent)]

theorem Window.grantsWord_eq (x : Window) : x.grantsWord = packFields x.grantFields := rfl

theorem Window.mem_grantFields {x : Window} {f : Nat × Nat × Nat} : f ∈ x.grantFields ↔
    ∃ k : GSlot, f = (5 * k.val, 2, (x.grant k).code) ∨ f = (5 * k.val + 2, 3, agentField (x.grant k).agent) := by
  simp [Window.grantFields]

theorem Window.grantFields_end {x : Window} {f : Nat × Nat × Nat} (hf : f ∈ x.grantFields) : f.1 + f.2.1 ≤ 30 := by
  obtain ⟨k, rfl | rfl⟩ := Window.mem_grantFields.1 hf
  · show 5 * k.val + 2 ≤ 30
    omega
  · show 5 * k.val + 2 + 3 ≤ 30
    omega

theorem Window.layout_grantFields (x : Window) : Layout x.grantFields := by
  refine ⟨fun f hf => (Window.grantFields_end hf).trans (by decide), List.pairwise_flatMap.2 ⟨fun k _ => ?_, ?_⟩⟩
  · simp [FieldsApart]
  · refine (List.pairwise_lt_finRange 6).imp fun {j k} hjk f hf g hg => Or.inl ?_
    have hjk : j.val < k.val := hjk
    have hend : f.1 + f.2.1 ≤ 5 * j.val + 5 := by
      rcases List.mem_pair.1 hf with rfl | rfl
      · exact Nat.add_le_add_left (Nat.le_add_right 2 3) _
      · exact le_rfl
    have hstart : 5 * k.val ≤ g.1 := by
      rcases List.mem_pair.1 hg with rfl | rfl
      · exact le_rfl
      · exact Nat.le_add_right _ _
    omega

theorem Window.zeroOutside_grantsWord (x : Window) : ZeroOutside x.grantsWord [(0, 30)] := by
  rw [Window.grantsWord_eq]
  refine (zeroOutside_packFields x.layout_grantFields).mono fun f hf => ?_
  obtain ⟨g, hg, rfl⟩ := List.mem_map.1 hf
  exact ⟨(0, 30), by simp, Nat.zero_le _, by simpa using Window.grantFields_end hg⟩

/-- The grant slots as READ WINDOW shows them (R177). -/
theorem Window.field_grantsWord (x : Window) (k : GSlot) :
    field x.grantsWord (5 * k.val) 2 = grantNumber (x.grant k) ∧
      field x.grantsWord (5 * k.val + 2) 3 = portNumber (x.grant k).agent := by
  rw [Window.grantsWord_eq, ← Grant.code_eq_grantNumber, ← agentField_eq_portNumber]
  exact ⟨field_packFields_of_lt x.layout_grantFields (Window.mem_grantFields.2 ⟨k, Or.inl rfl⟩) (Grant.code_lt _),
    field_packFields_of_lt x.layout_grantFields (Window.mem_grantFields.2 ⟨k, Or.inr rfl⟩) (agentField_lt _)⟩

theorem Window.shownSize_eq (x : Window) :
    x.shownSize = if x.state = .opened then x.extents.length else 0 := by
  unfold Window.shownSize
  cases x.state <;> rfl

theorem State.layout_windowWord (s : State) (w : WSlot) :
    Layout [(0, 8, (s.window w).shownSize), (8, 3, agentField (s.window w).owner),
      (12, 2, (s.window w).state.code)] := by
  simp [Layout, FieldsApart]

/-- Size, owner and state as READ WINDOW shows them (R114, R177). -/
theorem State.field_windowWord (hlen : (s.window w).extents.length ≤ 128) :
    field (s.windowWords w).w0 0 8 = (if (s.window w).state = .opened then (s.window w).extents.length else 0) ∧
      field (s.windowWords w).w0 8 3 = portNumber (s.window w).owner ∧
      field (s.windowWords w).w0 12 2 = windowNumber (s.window w).state := by
  have hsize : (s.window w).shownSize < 2 ^ 8 := by
    rw [Window.shownSize_eq]
    split <;> omega
  rw [← Window.shownSize_eq, ← agentField_eq_portNumber, ← WinState.code_eq_windowNumber]
  exact ⟨field_packFields_of_lt (s.layout_windowWord w) (by simp) hsize,
    field_packFields_of_lt (s.layout_windowWord w) (by simp) (agentField_lt _),
    field_packFields_of_lt (s.layout_windowWord w) (by simp) (WinState.code_lt _)⟩

/-- Settles O30: the right to read is checked, and every field of the four words shows its part of the record. -/
theorem readWindowShowsRecord : Obligations.ReadWindowShowsRecord := by
  intro p s hdue
  refine ⟨fun hnone => ?_, fun w hw => ⟨fun hparty => ?_, fun hparty d n hclear hown hn hlen => ?_⟩⟩
  · exact exec_of_refuse rfl rfl hdue (readWindowVerdict_noWindow (s := s.served p) hnone)
  · have hmay : (s.served p).mayRead p w = false := by rwa [← Bool.not_eq_true, State.mayRead_iff]
    exact exec_of_refuse rfl rfl hdue ((readWindowVerdict_eq (s := s.served p) hw).trans (checks_fail hmay))
  · have hexec := exec_of_finished (c := .readWindow p) (t := s) rfl rfl hdue
      ((readWindowVerdict_eq (s := s.served p) hw).trans (checks_pass (State.mayRead_iff.2 hparty)))
    obtain ⟨rfl, rfl⟩ := State.shown_eq hclear hown
    obtain ⟨hsize, howner, hstate⟩ := State.field_windowWord hlen
    have hdrain := (s.shownDrain w).zeroOutside_word
    have hcount := packFields_low (n := 11) hn
    refine ⟨s.windowWords w, hexec, hsize, howner, hstate, fun q => ?_, ?_, hdrain.toNat_lt, hcount,
      (s.window w).field_grantsWord, zeroOutside_packFields (s.layout_windowWord w), hdrain, ?_,
      (s.window w).zeroOutside_grantsWord⟩
    · exact field_packFields_of_lt (s.shownDrain w).layout_fields (DrainSet.port_mem_fields _ q) (Bool.toNat_lt _)
    · exact field_packFields_of_lt (s.shownDrain w).layout_fields List.mem_cons_self (Bool.toNat_lt _)
    · exact zeroOutside_packFields (layout_low (by decide))

end Window

end Sys2Proof.Machine
end
section
/-!
READ GRANT, READ VIEW, READ OFFER and READ ACCOUNT in the rules' own terms (R115 to R118, R177): which view and which
offer an index names, and the fields of the result words.
-/

namespace Sys2Proof.Machine

section Grants

variable {s : State} {p : Port} {w : WSlot} {k : GSlot}

theorem readGrantVerdict_noWindow (h : validHandle s (s.args p).w0 = none) :
    readGrantVerdict p s = .refuse .noWindow := by
  unfold readGrantVerdict
  rw [h]

theorem readGrantVerdict_badRange (hw : validHandle s (s.args p).w0 = some w) (hk : 6 ≤ (s.args p).w1.toNat) :
    readGrantVerdict p s = .refuse .badRange := by
  unfold readGrantVerdict
  simp only [hw, grantSlotArg_of_le hk]

theorem readGrantVerdict_eq (hw : validHandle s (s.args p).w0 = some w) (hk : (s.args p).w1.toNat = k.val) :
    readGrantVerdict p s = checks [(s.mayRead p w, .noRight)] (.finished s ((s.window w).grant k).words) := by
  unfold readGrantVerdict
  simp only [hw, grantSlotArg_of_eq hk]

/-- State and agent of a grant slot as one number (R115, R177). -/
theorem packFields_stateAgent {c : Nat} (hc : c < 4) (a : Port) :
    packFields [(0, 2, c), (4, 3, a.val)] = BitVec.ofNat 32 (c + 16 * a.val) := by
  have ha := a.isLt
  refine congrArg (BitVec.ofNat 32) ?_
  simp only [List.map_cons, List.map_nil, List.sum_cons, List.sum_nil]
  omega

theorem Grant.lifeField_offered (a : Port) (r : Rights) (n : Option Nat) :
    (Grant.offered a r n).lifeField = n.getD 0 := by cases n <;> rfl

theorem Grant.words_of_agent {g : Grant} {a : Port} (h : g.agent = some a) :
    g.words =
      ⟨BitVec.ofNat 32 (g.code + 16 * a.val), numWord g.rightsField, numWord g.baseField, numWord g.lifeField⟩ := by
  rw [Grant.words, h, agentField, packFields_stateAgent g.code_lt]

theorem Grant.zeroOutside_words (g : Grant) :
    ZeroOutside g.words.w0 [(0, 2), (4, 3)] ∧ ZeroOutside g.words.w1 [(0, 1)] := by
  have hrights : g.rightsField < 2 ^ 1 := by
    cases g with
    | vacant => decide
    | offered _ r _ | active _ r _ | revoked _ r _ => exact r.code_lt
  exact ⟨zeroOutside_packFields (by simp [Layout, FieldsApart]), zeroOutside_numWord (by decide) hrights⟩

/-- Settles O31: the slot number and the right to read are checked, and the words show the slot as it is. -/
theorem readGrantShowsSlot : Obligations.ReadGrantShowsSlot := by
  intro p s hdue
  refine ⟨fun hnone => ?_, fun w hw => ⟨fun hrange => ?_, fun k hk => ⟨fun hparty => ?_, fun hparty => ?_⟩⟩⟩
  · exact exec_of_refuse rfl rfl hdue (readGrantVerdict_noWindow (s := s.served p) hnone)
  · exact exec_of_refuse rfl rfl hdue (readGrantVerdict_badRange (s := s.served p) hw hrange)
  · have hmay : (s.served p).mayRead p w = false := by rwa [← Bool.not_eq_true, State.mayRead_iff]
    exact exec_of_refuse rfl rfl hdue ((readGrantVerdict_eq (s := s.served p) hw hk).trans (checks_fail hmay))
  · have hexec := exec_of_finished (c := .readGrant p) (t := s) rfl rfl hdue
      ((readGrantVerdict_eq (s := s.served p) hw hk).trans (checks_pass (State.mayRead_iff.2 hparty)))
    refine ⟨_, hexec, ?_, Grant.zeroOutside_words _⟩
    show ((s.window w).grant k).words = _
    cases (s.window w).grant k with
    | vacant => rfl
    | offered a r n =>
      rw [Grant.words_of_agent rfl, Grant.lifeField_offered]
      cases r <;> rfl
    | active a r b | revoked a r b =>
      rw [Grant.words_of_agent rfl]
      cases r <;> rfl

end Grants

section Views

variable {s : State} {p : Port}

/-- In a list that rises by a number, the entry at an index is the one above which as many stand. -/
theorem getElem?_of_rank {α : Type} {f : α → Nat} {l : List α} (h : l.Pairwise fun u v => f u < f v) {v : α}
    (hv : v ∈ l) : l[(l.filter fun u => decide (f u < f v)).length]? = some v := by
  induction l with
  | nil => cases hv
  | cons x l ih =>
    obtain ⟨hx, hl⟩ := List.pairwise_cons.1 h
    rcases List.mem_cons.1 hv with rfl | hv
    · have hnone : (v :: l).filter (fun u => decide (f u < f v)) = [] := by
        simp only [List.filter_eq_nil_iff, List.forall_mem_cons, decide_eq_true_eq]
        exact ⟨lt_irrefl _, fun u hu => (hx u hu).not_gt⟩
      rw [hnone]
      rfl
    · rw [List.filter_cons_of_pos (by simpa using hx v hv), List.length_cons, List.getElem?_cons_succ]
      exact ih hl hv

theorem State.viewsByBase_perm (s : State) (p : Port) : (s.viewsByBase p).Perm (s.viewsOf p) :=
  List.perm_insertionSort _ _

/-- The caller's views in rising order of their bases, where the bases are distinct (R14, R116). -/
theorem State.viewsByBase_pairwise (h : ((s.viewsOf p).map View.base).Nodup) :
    (s.viewsByBase p).Pairwise fun u v => u.base < v.base := by
  have : Std.Total fun u v : View => u.base ≤ v.base := ⟨fun u v => Nat.le_total u.base v.base⟩
  have : IsTrans View fun u v => u.base ≤ v.base := ⟨fun _ _ _ => Nat.le_trans⟩
  have hle := List.pairwise_insertionSort (fun u v : View => u.base ≤ v.base) (s.viewsOf p)
  have hne : (s.viewsByBase p).Pairwise fun u v => u.base ≠ v.base :=
    List.pairwise_map.1 (((s.viewsByBase_perm p).map View.base).nodup_iff.2 h)
  exact hle.imp₂ (fun _ _ => Nat.lt_of_le_of_ne) hne

/-- The view of an index is the one below whose base as many of the caller's views stand (R116). -/
theorem State.viewsByBase_getElem? (h : ((s.viewsOf p).map View.base).Nodup) {v : View} (hv : v ∈ s.viewsOf p) {i : Nat}
    (hi : ((s.viewsOf p).filter fun u => decide (u.base < v.base)).length = i) : (s.viewsByBase p)[i]? = some v := by
  have hperm := s.viewsByBase_perm p
  have hrank := getElem?_of_rank (State.viewsByBase_pairwise h) (hperm.mem_iff.2 hv)
  rwa [(hperm.filter _).length_eq, hi] at hrank

theorem State.viewsByBase_length : (s.viewsByBase p).length = s.viewsHeld p :=
  (s.viewsByBase_perm p).length_eq

theorem readViewVerdict_badRange (h : 16 ≤ (s.args p).w0.toNat ∨ s.viewsHeld p ≤ (s.args p).w0.toNat) :
    readViewVerdict p s = .refuse .badRange := by
  unfold readViewVerdict
  by_cases hi : 15 < (s.args p).w0.toNat
  · rw [if_pos hi]
  · have hout : (s.viewsByBase p).length ≤ (s.args p).w0.toNat := by
      rw [State.viewsByBase_length]
      exact h.resolve_left (Nat.not_le.2 (Nat.lt_succ_of_le (Nat.not_lt.1 hi)))
    rw [if_neg hi, List.getElem?_eq_none hout]

theorem readViewVerdict_finished {v : View} (hi : (s.args p).w0.toNat < 16)
    (hv : (s.viewsByBase p)[(s.args p).w0.toNat]? = some v) :
    readViewVerdict p s = .finished s (s.viewWords p v) := by
  unfold readViewVerdict
  rw [if_neg (by omega), hv]

theorem layout_viewWord (v : View) :
    Layout [(0, 3, v.slot.val), (4, 2, if v.revoked then 3 else 2), (8, 1, v.rights.code)] := by
  simp [Layout, FieldsApart]

theorem State.layout_viewCounts (s : State) (p : Port) (v : View) : Layout [(0, 8, v.len), (16, 5, s.viewsHeld p)] := by
  simp [Layout, FieldsApart]

/-- Settles O32: in rising order of distinct bases the index is the number of views below. -/
theorem readViewByBase : Obligations.ReadViewByBase := by
  intro p s hdue
  refine ⟨fun hrange => ?_, fun hi hheld hdistinct v hv hrank hlen => ?_⟩
  · exact exec_of_refuse rfl rfl hdue (readViewVerdict_badRange (s := s.served p) hrange)
  · have hexec := exec_of_finished (c := .readView p) (t := s) rfl rfl hdue
      (readViewVerdict_finished (s := s.served p) hi (State.viewsByBase_getElem? hdistinct hv hrank))
    have hword := zeroOutside_packFields (layout_viewWord v)
    have hlow : ZeroOutside (s.viewWords p v).w1 [(0, 9)] := hword.mono (by simp)
    have hstate : (if v.revoked then 3 else 2) < 2 ^ 2 := by split <;> decide
    refine ⟨s.viewWords p v, hexec, rfl, ?_, ?_, ?_, hlow.toNat_lt, rfl, ?_, ?_, hword,
      zeroOutside_packFields (s.layout_viewCounts p v)⟩
    · exact field_packFields_of_lt (layout_viewWord v) (by simp) (v.slot.isLt.trans (by decide))
    · exact field_packFields_of_lt (layout_viewWord v) (by simp) hstate
    · rw [← Rights.code_eq_rightsNumber]
      exact field_packFields_of_lt (layout_viewWord v) (by simp) v.rights.code_lt
    · exact field_packFields_of_lt (s.layout_viewCounts p v) (by simp) (by omega)
    · exact field_packFields_of_lt (s.layout_viewCounts p v) (by simp) (by omega)

end Views

section Offers

variable {s : State} {p : Port} {w : WSlot} {k : GSlot} {r : Rights} {n : Option Nat}

theorem Grant.offered_iff (g : Grant) (a : Port) :
    (g.isOffered && g.isOf a) = true ↔ ∃ r n, g = .offered a r n := by
  cases g <;> simp [Grant.isOffered, Grant.isOf, Grant.agent]

theorem State.mem_offersTo_iff : (w, k) ∈ s.offersTo p ↔ ∃ r n, (s.window w).grant k = .offered p r n := by
  rw [← Grant.offered_iff]
  simp [State.offersTo]

/-- Offers are counted in ascending window slot, and in ascending grant slot within a window (R117). -/
theorem State.offersTo_pairwise (s : State) (p : Port) :
    (s.offersTo p).Pairwise fun x y => x.1 < y.1 ∨ (x.1 = y.1 ∧ x.2 < y.2) := by
  refine List.pairwise_flatMap.2 ⟨fun w _ => ?_, ?_⟩
  · exact List.pairwise_map.2 (((List.pairwise_lt_finRange 6).filter _).imp fun hlt => Or.inr ⟨rfl, hlt⟩)
  · refine (List.pairwise_lt_finRange 128).imp fun hlt x hx y hy => Or.inl ?_
    obtain ⟨j, -, rfl⟩ := List.mem_map.1 hx
    obtain ⟨k, -, rfl⟩ := List.mem_map.1 hy
    exact hlt

theorem readOfferVerdict_badRange (h : 128 ≤ (s.args p).w0.toNat ∨ (s.offersTo p).length ≤ (s.args p).w0.toNat) :
    readOfferVerdict p s = .refuse .badRange := by
  unfold readOfferVerdict
  by_cases hi : 127 < (s.args p).w0.toNat
  · rw [if_pos hi]
  · have hout : (s.offersTo p).length ≤ (s.args p).w0.toNat :=
      h.resolve_left (Nat.not_le.2 (Nat.lt_succ_of_le (Nat.not_lt.1 hi)))
    rw [if_neg hi, List.getElem?_eq_none hout]

theorem readOfferVerdict_finished (hi : (s.args p).w0.toNat < 128)
    (hx : (s.offersTo p)[(s.args p).w0.toNat]? = some (w, k)) :
    readOfferVerdict p s = .finished s (s.offerWords p w k) := by
  unfold readOfferVerdict
  rw [if_neg (by omega), hx]

theorem layout_offerWord (s : State) (w : WSlot) (k : GSlot) :
    Layout [(0, 3, k.val), (8, 1, ((s.window w).grant k).rightsField), (16, 3, agentField (s.window w).owner)] := by
  simp [Layout, FieldsApart]

theorem layout_offerSize (s : State) (w : WSlot) (k : GSlot) :
    Layout [(0, 8, (s.window w).shownSize), (16, 8, ((s.window w).grant k).lifeField)] := by
  simp [Layout, FieldsApart]

/-- Settles O33: the offers stand in ascending order by construction, and the index takes the one that stands there. -/
theorem readOfferBySlot : Obligations.ReadOfferBySlot := by
  intro p s hdue
  refine ⟨fun hrange => ?_, fun w k r n hi hx hk hlife hcount hlen hs => ?_, fun w k => State.mem_offersTo_iff,
    s.offersTo_pairwise p⟩
  · exact exec_of_refuse rfl rfl hdue (readOfferVerdict_badRange (s := s.served p) hrange)
  · have hexec := exec_of_finished (c := .readOffer p) (t := s) rfl rfl hdue
      (readOfferVerdict_finished (s := s.served p) hi hx)
    have hsize : (s.window w).shownSize = (s.window w).extents.length := by rw [Window.shownSize_eq, if_pos hs]
    have hrights : ((s.window w).grant k).rightsField = rightsNumber r := by
      rw [hk, ← Rights.code_eq_rightsNumber, Grant.rightsField]
    have hticks : ((s.window w).grant k).lifeField = n.getD 0 := by rw [hk, Grant.lifeField_offered]
    refine ⟨s.offerWords p w k, hexec, rfl, ?_, ?_, ?_, ?_, ?_, ?_, zeroOutside_packFields (layout_offerWord s w k),
      zeroOutside_packFields (layout_offerSize s w k), zeroOutside_packFields (layout_low (by decide))⟩
    · exact field_packFields_of_lt (layout_offerWord s w k) (by simp) (k.isLt.trans (by decide))
    · rw [← hrights]
      exact field_packFields_of_lt (layout_offerWord s w k) (by simp) (by rw [hk]; exact r.code_lt)
    · rw [← agentField_eq_portNumber]
      exact field_packFields_of_lt (layout_offerWord s w k) (by simp) (agentField_lt _)
    · rw [← hsize]
      exact field_packFields_of_lt (layout_offerSize s w k) (by simp) (by omega)
    · rw [← hticks]
      exact field_packFields_of_lt (layout_offerSize s w k) (by simp) (by omega)
    · exact field_packFields_of_lt (layout_low (by decide)) (by simp) (by omega)

end Offers

section Accounts

variable (s : State) (p : Port)

theorem State.layout_quotas : Layout [(0, 5, (s.account p).windowQuota), (16, 11, (s.account p).extentQuota)] := by
  simp [Layout, FieldsApart]

theorem State.layout_usage :
    Layout [(0, 5, s.ownedWindows p), (8, 5, s.viewsHeld p), (16, 11, s.ownedExtents p)] := by
  simp [Layout, FieldsApart]

/-- Settles O34: every quota, rank and count stands in a field that holds it. -/
theorem readAccountShowsUsage : Obligations.ReadAccountShowsUsage := by
  intro p s hdue hwq heq hwin hheld hext hfree
  have hexec := exec_of_finished (c := .readAccount p) (t := s) (res := s.accountWords p) rfl rfl hdue rfl
  refine ⟨s.accountWords p, hexec, ?_, ?_, packFields_low (s.account p).rank.isLt, ?_, ?_, ?_,
    packFields_low (n := 11) (by omega), zeroOutside_packFields (s.layout_quotas p),
    zeroOutside_packFields (layout_low (by decide)), zeroOutside_packFields (s.layout_usage p),
    zeroOutside_packFields (layout_low (by decide))⟩
  · exact field_packFields_of_lt (s.layout_quotas p) (by simp) (by omega)
  · exact field_packFields_of_lt (s.layout_quotas p) (by simp) (by omega)
  · exact field_packFields_of_lt (s.layout_usage p) (by simp) (by omega)
  · exact field_packFields_of_lt (s.layout_usage p) (by simp) (by omega)
  · exact field_packFields_of_lt (s.layout_usage p) (by simp) (by omega)

end Accounts

end Sys2Proof.Machine
end
section
/-!
The ageing of offers in the rules' own terms (R104, R105): TICK and OFFER_EXPIRY.
-/

namespace Sys2Proof.Machine

section Ageing

variable {s : State} {w : WSlot} {a : Port}

/-- An aged offer expires where its lifetime was 1, or stood at 0 already. -/
theorem Grant.expire_age_eq_ticked (g : Grant) : g.age.expire = g.ticked := by
  cases g with
  | offered a r life =>
    cases life with
    | none => rfl
    | some n =>
      match n with
      | 0 | 1 | _ + 2 => rfl
  | vacant | active | revoked => rfl

theorem Grant.lapsed_age_iff (g : Grant) : g.age.lapsed = true ↔ ∃ a r n, g = .offered a r (some n) ∧ n ≤ 1 := by
  cases g with
  | offered a r life =>
    cases life with
    | none => simp [Grant.age, Grant.lapsed]
    | some n =>
      match n with
      | 0 | 1 | _ + 2 => simp [Grant.age, Grant.lapsed]
  | vacant | active | revoked => simp [Grant.age, Grant.lapsed]

/-- An offer that this tick ends passes a test (R104). -/
theorem Window.lapses_iff (x : Window) (test : Grant → Bool) : x.lapses test = true ↔
    x.state = .opened ∧ ∃ k a r n, x.grant k = .offered a r (some n) ∧ n ≤ 1 ∧ test (x.grant k) = true := by
  simp only [Window.lapses, Window.anyGrant, Bool.and_eq_true, decide_eq_true_eq, List.any_eq_true,
    List.mem_finRange, true_and, Grant.lapsed_age_iff]
  refine and_congr_right fun _ => exists_congr fun k => ?_
  constructor
  · rintro ⟨⟨a, r, n, hg, hn⟩, htest⟩
    exact ⟨a, r, n, hg, hn, htest⟩
  · rintro ⟨a, r, n, hg, hn, htest⟩
    exact ⟨⟨a, r, n, hg, hn⟩, htest⟩

theorem State.lapses_isOf_iff : ((s.window w).lapses fun g => g.isOf a) = true ↔ s.LastTick w a := by
  rw [Window.lapses_iff, State.LastTick]
  refine and_congr_right fun _ => exists_congr fun k => ?_
  constructor
  · rintro ⟨b, r, n, hg, hn, hof⟩
    rw [hg, Grant.isOf_iff] at hof
    cases hof
    exact ⟨r, n, hg, hn⟩
  · rintro ⟨r, n, hg, hn⟩
    exact ⟨a, r, n, hg, hn, by rw [hg, Grant.isOf_offered]⟩

theorem State.lapses_any_iff : ((s.window w).lapses fun _ => true) = true ↔ ∃ a, s.LastTick w a := by
  rw [Window.lapses_iff]
  constructor
  · rintro ⟨hs, k, a, r, n, hg, hn, -⟩
    exact ⟨a, hs, k, r, n, hg, hn⟩
  · rintro ⟨a, hs, k, r, n, hg, hn⟩
    exact ⟨hs, k, a, r, n, hg, hn, rfl⟩

/-- The part after a tick (R104, R105). -/
def State.aged (s : State) : State :=
  State.mapWindows
    (State.addAttentionWhere
      (s.addAttentionWhere
        (fun p => (List.finRange 128).any fun w => (s.window w).lapses fun g => g.isOf p) .offers)
      (fun p => (List.finRange 128).any fun w =>
        decide ((s.window w).owner = some p) && (s.window w).lapses fun _ => true) .grants)
    fun _ x => x.tick

theorem execTick_eq_aged (h : s.resetn = false) : execTick s = .next s.aged := by
  rw [execTick, h]
  rfl

theorem State.window_aged (w : WSlot) : s.aged.window w = (s.window w).tick := State.window_mapWindows _ _ w

theorem Window.tick_eq (x : Window) : x.tick = { x with grants := x.tick.grants } := by
  unfold Window.tick
  split <;> rfl

/-- A tick ages the slots of an OPEN window (R104). -/
theorem Window.grant_tick (x : Window) (k : GSlot) :
    x.tick.grant k = if x.state = .opened then (x.grant k).ticked else x.grant k := by
  unfold Window.tick
  by_cases hs : x.state = .opened
  · rw [if_pos hs, if_pos hs, Window.grant_mapAll, Grant.expire_age_eq_ticked]
  · rw [if_neg hs, if_neg hs]

theorem State.port_aged (q : Port) : s.aged.port q =
    { s.port q with
      attention := KindSet.addIf
        ((List.finRange 128).any fun w =>
          decide ((s.window w).owner = some q) && (s.window w).lapses fun _ => true)
        (KindSet.addIf ((List.finRange 128).any fun w => (s.window w).lapses fun g => g.isOf q)
          (s.port q).attention .offers) .grants } := by
  refine (State.port_addAttentionWhere _ _ q .grants).trans ?_
  rw [State.port_addAttentionWhere]

/-- What a tick tells the ports (R105). -/
theorem State.adds_aged : Adds s s.aged fun q k =>
    (k = .offers ∧ ∃ w, s.LastTick w q) ∨ (k = .grants ∧ ∃ w, (s.window w).owner = some q ∧ ∃ a, s.LastTick w a) := by
  intro q k
  rw [State.port_aged]
  simp only [KindSet.has_addIf, Bool.or_eq_true, Bool.and_eq_true, decide_eq_true_eq, List.any_eq_true,
    List.mem_finRange, true_and, State.lapses_isOf_iff, State.lapses_any_iff, or_assoc]
  rw [and_comm (b := k = .offers), and_comm (b := k = .grants)]

theorem execOfferExpiry_due {k : GSlot} {o : Port} {r : Rights} (h : s.resetn = false)
    (hg : (s.window w).grant k = .offered a r (some 0)) (ho : (s.window w).owner = some o) :
    execOfferExpiry w k s = .next (((s.withGrant w k .vacant).told a .offers).told o .grants) := by
  have htold := State.tellOwner_eq_told ((s.withGrant w k .vacant).told a .offers) w
    ((s.owner_withGrant w k .vacant w).trans ho)
  rw [execOfferExpiry, hg, h]
  exact congrArg _ htold

/-- Settles O49: each slot ages as R104 says, and the ports told are those of the offers that lapse. -/
theorem ticksAgeOffers : Obligations.TicksAgeOffers := by
  intro s hn
  refine ⟨⟨s.aged, execTick_eq_aged hn, rfl, fun w => ?_, fun w k => ?_, fun q => ?_, State.adds_aged⟩,
    fun w k a o r hg ho => execOfferExpiry_due hn hg ho⟩
  · rw [State.window_aged]
    exact Window.tick_eq _
  · rw [State.window_aged, Window.grant_tick]
  · rw [State.port_aged]

end Ageing

end Sys2Proof.Machine
end
section
/-!
The assertion of RESETn in the rules' own terms (R119, R126, R77, R120).
-/

namespace Sys2Proof.Machine

section Asserted

variable (s : State)

/-- The part while RESETn is asserted: requests, the unit and both engines' work abandoned, the bank undefined anew. -/
def State.assertedReset : State :=
  { s with
    resetn := true
    ports := Tab.mapAll s.ports fun _ u => u.abandonRequest
    wpe := .idle
    rle := .idle
    abandonHanded := PortSet.none
    bankReady := false
    unit := none
    mem := []
    epoch := s.epoch + 1 }

theorem exec_resetnAssert_of_released (h : s.resetn = false) :
    exec .resetnAssert s = .next s.assertedReset := by
  rw [show exec .resetnAssert s = execResetnAssert s from rfl, execResetnAssert, h]
  rfl

theorem exec_resetnAssert_of_asserted (h : s.resetn = true) : exec .resetnAssert s = .next s := if_pos h

theorem State.port_assertedReset (p : Port) :
    s.assertedReset.port p = { s.port p with access := .idle, response := none } :=
  State.port_mapPorts s (fun _ u => u.abandonRequest) p

/-- NOTICE is negated while RESETn is asserted (R77). -/
theorem State.notice_of_asserted (h : s.resetn = true) (p : Port) : s.notice p = false := by
  rw [State.notice, h]
  rfl

/-- A word of a bank that lists none is as the power-on left it (R120). -/
theorem Memory.stored_nil (epoch x : Nat) : Memory.stored epoch [] x = Config.powerOnWord epoch x := rfl

/-- Settles O4: the first assertion leaves `State.assertedReset`, and a second one finds RESETn asserted. -/
theorem assertAbandonsWork : Obligations.AssertAbandonsWork := by
  intro s
  refine ⟨fun h => ⟨s.assertedReset, exec_resetnAssert_of_released s h, rfl, fun p => ⟨?_, ?_⟩, fun x => ?_⟩,
    exec_resetnAssert_of_asserted s⟩
  · exact s.port_assertedReset p
  · exact s.assertedReset.notice_of_asserted rfl p
  · exact Memory.stored_nil (s.epoch + 1) x

end Asserted

end Sys2Proof.Machine
end
section
/-!
The memory arbiter in the rules' own terms (R121, R123 to R126, R132): the candidates at an idle bank, the choice
among them, and what the grant to each leaves.
-/

namespace Sys2Proof.Machine

section Turns

/-- In a list in the order `R`, the first entry with a result is the one that no entry with a result precedes. -/
theorem findSome?_of_first {α β : Type} {R : α → α → Prop} {f : α → Option β} {a : α} {b : β} {l : List α}
    (hl : l.Pairwise R) (ha : a ∈ l) (hfa : f a = some b) (hfirst : ∀ x, R x a → f x = none) :
    l.findSome? f = some b := by
  induction l with
  | nil => cases ha
  | cons x l ih =>
    obtain ⟨hx, hl⟩ := List.pairwise_cons.1 hl
    rcases List.mem_cons.1 ha with rfl | ha
    · rw [List.findSome?_cons, hfa]
    · rw [List.findSome?_cons, hfirst x (hx a ha)]
      exact ih hl ha

/-- The ports stand in the order of their turns (R124). -/
theorem portsAfter_pairwise :
    ∀ last : Port, (portsAfter last).Pairwise fun p q => turnsAfter last p < turnsAfter last q := by decide

end Turns

section Candidates

variable {s : State}

/-- At an idle bank every access presented is a candidate (R123). -/
theorem State.portWaits_of_idle (hu : s.unit = none) (p : Port) : s.portWaits p = (s.port p).access.presented := by
  rw [Bool.eq_iff_iff, State.portWaits_eq_true]
  simp [hu]

theorem State.rleWaits_of_idle (hu : s.unit = none) : s.rleWaits = s.rle.hasBlock := by
  simp [State.rleWaits, hu]

theorem State.wpeWaits_of_idle (hu : s.unit = none) : s.wpeWaits = decide (s.wpe ≠ .idle) := by
  simp [State.wpeWaits, hu]

theorem State.agentWaits_of_idle (hu : s.unit = none) :
    s.agentWaits = true ↔ ∃ p, (s.port p).access.presented = true := by
  simp [State.agentWaits, s.portWaits_of_idle hu]

variable {p : Port}

/-- In its own rank the candidate with the fewest turns to wait is picked (R124). -/
theorem State.pickOfRank_of_first (hu : s.unit = none) (hp : (s.port p).access.presented = true)
    (hturn : ∀ q, (s.port q).access.presented = true → (s.account q).rank = (s.account p).rank →
      turnsAfter (Tab.get s.lastGranted (s.account p).rank) p ≤
        turnsAfter (Tab.get s.lastGranted (s.account p).rank) q) :
    s.pickOfRank (s.account p).rank = some p := by
  rw [State.pickOfRank, List.find?_eq_findSome?_guard]
  refine findSome?_of_first (portsAfter_pairwise _) (mem_portsAfter _ p) ?_ fun q hq => ?_
  · simp [s.portWaits_of_idle hu, hp]
  · rw [Option.guard_eq_none_iff, Bool.eq_false_iff]
    simp only [s.portWaits_of_idle hu, ne_eq, Bool.and_eq_true, decide_eq_true_eq]
    rintro ⟨hpres, hrank⟩
    exact absurd (hturn q hpres hrank) (Nat.not_le.2 hq)

/-- A rank above all candidates' has none to pick. -/
theorem State.pickOfRank_of_above (hu : s.unit = none) {r : Fin 4}
    (h : ∀ q, (s.port q).access.presented = true → r < (s.account q).rank) : s.pickOfRank r = none := by
  refine List.find?_eq_none.2 fun q _ => ?_
  simp only [s.portWaits_of_idle hu, Bool.and_eq_true, decide_eq_true_eq]
  rintro ⟨hpres, rfl⟩
  exact absurd (h q hpres) (lt_irrefl _)

/-- The port of the highest rank, in turn within the rank (R124). -/
theorem State.pickPort_of_first (hu : s.unit = none) (hp : (s.port p).access.presented = true)
    (hrank : ∀ q, (s.port q).access.presented = true → (s.account p).rank ≤ (s.account q).rank)
    (hturn : ∀ q, (s.port q).access.presented = true → (s.account q).rank = (s.account p).rank →
      turnsAfter (Tab.get s.lastGranted (s.account p).rank) p ≤
        turnsAfter (Tab.get s.lastGranted (s.account p).rank) q) :
    s.pickPort = some p :=
  findSome?_of_first (List.pairwise_lt_finRange 4) (List.mem_finRange _) (s.pickOfRank_of_first hu hp hturn)
    fun _ hr => s.pickOfRank_of_above hu fun q hq => lt_of_lt_of_le hr (hrank q hq)

theorem State.pickPort_of_none (hu : s.unit = none) (h : ∀ p, (s.port p).access.presented = false) :
    s.pickPort = none :=
  s.pickPort_eq_none_iff.2 fun p => (s.portWaits_of_idle hu p).trans (h p)

/-- The Wipe Engine has been passed over sixteen times (R125). -/
abbrev State.WipeFirst (s : State) : Prop := s.wpe ≠ .idle ∧ s.wipeWait = 16

/-- The Relocation Engine has its turn: it did not have the previous grant, or no port waits (R124). -/
abbrev State.RleNext (s : State) : Prop :=
  s.rle.hasBlock = true ∧ ¬ (s.prevGrant = some .rle ∧ ∃ p, (s.port p).access.presented = true)

/-- The arbiter's choice at an idle bank, in the order of R124 and R125. -/
theorem State.pickRequester_of_idle (hu : s.unit = none) : s.pickRequester =
    if s.WipeFirst then some .wpe else if s.RleNext then some .rle else
      (s.pickPort.map Requester.port).or (if s.wpe = .idle then none else some .wpe) := by
  have hagent := s.agentWaits_of_idle hu
  simp only [State.pickRequester, s.wpeWaits_of_idle hu, s.rleWaits_of_idle hu, Bool.and_eq_true,
    Bool.not_eq_true', ← Bool.not_eq_true, decide_eq_true_eq, hagent]
  congr 2
  cases s.pickPort with
  | none => simp
  | some p => rfl

theorem State.pickRequester_wipeFirst (hu : s.unit = none) (h : s.WipeFirst) : s.pickRequester = some .wpe := by
  rw [s.pickRequester_of_idle hu, if_pos h]

theorem State.pickRequester_rleNext (hu : s.unit = none) (hw : ¬ s.WipeFirst) (h : s.RleNext) :
    s.pickRequester = some .rle := by
  rw [s.pickRequester_of_idle hu, if_neg hw, if_pos h]

theorem State.pickRequester_port (hu : s.unit = none) (hw : ¬ s.WipeFirst) (hr : ¬ s.RleNext)
    (h : s.pickPort = some p) : s.pickRequester = some (.port p) := by
  rw [s.pickRequester_of_idle hu, if_neg hw, if_neg hr, h]
  rfl

theorem State.pickRequester_last (hu : s.unit = none) (hw : ¬ s.WipeFirst) (hr : ¬ s.RleNext)
    (h : s.pickPort = none) : s.pickRequester = if s.wpe = .idle then none else some .wpe := by
  rw [s.pickRequester_of_idle hu, if_neg hw, if_neg hr, h]
  rfl

end Candidates

section Grants

variable (s : State)

theorem Wpe.presents_ne_none {x : Wpe} {u : OpUnit} (h : x.presents = some u) : x ≠ .idle := by
  rintro rfl
  cases h

theorem State.unitFor_wpe : s.unitFor .wpe = s.wpe.presents := by
  unfold State.unitFor Wpe.presents
  cases s.wpe <;> rfl

variable {s}

/-- Only a write to the source below the pointer is mirrored (R132). -/
theorem State.mirrorOf_of_source {src tgt : Extent} {ptr : Nat} (hs : s.rle.swapped = false)
    (hrel : s.rle.relocation = some (src, tgt, ptr)) (a : AccessRec) : s.mirrorOf a =
      if a.op ≠ .read ∧ a.ext = src ∧ a.byteAddr / 64 < ptr then some tgt else none := by
  unfold State.mirrorOf
  cases hop : a.op with
  | read => exact (if_neg fun h => h.1 rfl).symm
  | write d =>
    rw [hs, hrel]
    exact if_congr (by simp [blockOf]) rfl rfl

/-- Without a source, which the swap has ended too, nothing is mirrored (R138, R143; log 31). -/
theorem State.mirrorOf_of_noSource (h : s.rle.swapped = true ∨ s.rle.relocation = none) (a : AccessRec) :
    s.mirrorOf a = none := by
  unfold State.mirrorOf
  cases a.op with
  | read => rfl
  | write d =>
    rcases h with h | h
    · rw [h]
    · rw [h]
      cases s.rle.swapped <;> rfl

variable (s)

/-- What the access of a port is mirrored to (R132, R138, R143; log 31). -/
theorem State.record_bind_mirrorOf (p : Port) :
    (s.port p).access.record.bind s.mirrorOf = s.mirrorTarget p := by
  unfold State.mirrorTarget
  cases (s.port p).access.record with
  | none =>
    cases s.rle with
    | cutover src tgt ptr aw cl bu sw => cases sw <;> rfl
    | idle | waiting | copying | abandoning => rfl
  | some a =>
    rw [Option.bind_some]
    cases hr : s.rle with
    | idle | waiting => exact s.mirrorOf_of_noSource (Or.inr (by rw [hr]; rfl)) a
    | copying | abandoning => exact s.mirrorOf_of_source (by rw [hr]; rfl) (by rw [hr]; rfl) a
    | cutover src tgt ptr aw cl bu sw =>
      cases sw with
      | taken => exact s.mirrorOf_of_noSource (Or.inl (by rw [hr]; rfl)) a
      | notRequested | requested => exact s.mirrorOf_of_source (by rw [hr]; rfl) (by rw [hr]; rfl) a

variable {s}

theorem State.grantTo_wpe {u : OpUnit} (h : s.wpe.presents = some u) : s.grantTo .wpe = s.wipeGranted u := by
  rw [State.grantTo, State.unitFor_wpe, h]
  rfl

theorem State.wipeWaitAfter_of_ne (hu : s.unit = none) {q : Requester} (hq : q ≠ .wpe) :
    s.wipeWaitAfter q = s.wipePassedOver := by
  rw [State.wipeWaitAfter, if_neg hq, s.wpeWaits_of_idle hu, State.wipePassedOver]
  by_cases h : s.wpe = .idle <;> simp [h]

theorem State.grantTo_rle (hu : s.unit = none) : s.grantTo .rle =
    { s with unit := some .copy, prevGrant := some .rle, wipeWait := s.wipePassedOver } := by
  rw [State.grantTo, State.wipeWaitAfter_of_ne hu (q := .rle) nofun]
  rfl

theorem State.grantTo_port (hu : s.unit = none) (p : Port) : s.grantTo (.port p) =
    { s with
      unit := some (.agent p (s.mirrorTarget p))
      prevGrant := some (.port p)
      wipeWait := s.wipePassedOver
      lastGranted := Tab.upd s.lastGranted (s.account p).rank fun _ => p } := by
  rw [State.grantTo, State.wipeWaitAfter_of_ne hu (q := .port p) nofun, State.unitFor, State.record_bind_mirrorOf]
  rfl

end Grants

section MemoryGrant

variable {s : State}

theorem exec_memoryGrant (hn : s.resetn = false) : exec .memoryGrant s = .next s.endRefresh.grantMemory :=
  if_neg (by simp [hn])

theorem State.endRefresh_of_idle (hu : s.unit = none) : s.endRefresh = { s with refreshPending := false } := by
  rw [State.endRefresh, hu]

/-- MEMORY_GRANT at an idle bank finds a refresh over (R121; log 33). -/
theorem exec_memoryGrant_of_idle (hu : s.unit = none) : exec .memoryGrant s =
    if s.resetn then .next s else exec .memoryGrant { s with refreshPending := false } := by
  by_cases hn : s.resetn = true
  · rw [if_pos hn]
    exact if_pos hn
  · have hn := Bool.eq_false_iff.2 hn
    rw [if_neg (Bool.eq_false_iff.1 hn), exec_memoryGrant hn,
      exec_memoryGrant (s := { s with refreshPending := false }) hn, State.endRefresh_of_idle hu,
      State.endRefresh_of_idle (s := { s with refreshPending := false }) hu]

/-- A bank that can be granted: READY and idle, no refresh pending. -/
structure State.Grantable (s : State) : Prop where
  released : s.resetn = false
  ready : s.bankReady = true
  idle : s.unit = none
  noRefresh : s.refreshPending = false

theorem State.Grantable.exec_eq (h : s.Grantable) : exec .memoryGrant s =
    .next (s.pickRequester.elim s s.grantTo) := by
  have hend : s.endRefresh = s := by rw [s.endRefresh_eq, h.noRefresh, Bool.false_and, ← h.noRefresh]
  have hdue : s.grantDue = true := by simp [State.grantDue, h.ready, h.idle, h.noRefresh]
  rw [exec_memoryGrant h.released, hend, State.grantMemory, if_pos hdue]
  cases s.pickRequester <;> rfl

theorem State.Grantable.exec_of_pick (h : s.Grantable) {q : Requester} (hq : s.pickRequester = some q) :
    exec .memoryGrant s = .next (s.grantTo q) := by
  rw [h.exec_eq, hq]
  rfl

/-- Settles O51: the choice at an idle bank follows the order of R124 and R125, each grant by its own equation. -/
theorem memoryArbiterGrantsInOrder : Obligations.MemoryArbiterGrantsInOrder := by
  refine ⟨fun s hr => ⟨State.grantMemory_of_refreshPending hr, exec_memoryGrant_of_idle⟩,
    fun s hn hb hu hr => ?_⟩
  have hg : s.Grantable := ⟨hn, hb, hu, hr⟩
  refine ⟨fun u hw h16 => ?_, fun hwipe => ⟨fun hblock hturn => ?_, fun hrle =>
    ⟨fun p hp hrank hturn => ?_, fun hnone => ⟨fun u hw => ?_, fun hw => ?_⟩⟩⟩⟩
  · rw [hg.exec_of_pick (s.pickRequester_wipeFirst hu ⟨Wpe.presents_ne_none hw, h16⟩), State.grantTo_wpe hw]
  · rw [hg.exec_of_pick (s.pickRequester_rleNext hu hwipe ⟨hblock, hturn⟩), State.grantTo_rle hu]
  · rw [hg.exec_of_pick (s.pickRequester_port hu hwipe hrle (s.pickPort_of_first hu hp hrank hturn)),
      State.grantTo_port hu]
  · have hlast := s.pickRequester_last hu hwipe hrle (s.pickPort_of_none hu hnone)
    rw [if_neg (Wpe.presents_ne_none hw)] at hlast
    rw [hg.exec_of_pick hlast, State.grantTo_wpe hw]
  · have hlast := s.pickRequester_last hu hwipe hrle (s.pickPort_of_none hu hnone)
    rw [if_pos hw] at hlast
    rw [hg.exec_eq, hlast]
    rfl

end MemoryGrant

end Sys2Proof.Machine
end
section
/-!
The bank under the units of the two engines (R127, R133): what an address holds after a word is stored, after the bank
changed bits of it, and after words are copied.
-/

namespace Sys2Proof.Machine

section Stored

variable {epoch : Nat} {m : Memory}

theorem Memory.stored_put (h : Memory.wf m = true) (a x : Nat) (w : StoredWord) :
    Memory.stored epoch (Memory.put m a w) x = if x = a then w else Memory.stored epoch m x := by
  rw [Memory.stored, Memory.find_put m a x w h]
  split <;> rfl

theorem disturbed_zero (w : StoredWord) : disturbed w 0 = w :=
  congrArg (StoredWord.mk w.content) BitVec.xor_zero

theorem Memory.stored_disturb (h : Memory.wf m = true) (a x : Nat) (c : Bits39) :
    Memory.stored epoch (Memory.disturb epoch m a c) x =
      if x = a then disturbed (Memory.stored epoch m a) c else Memory.stored epoch m x := by
  unfold Memory.disturb
  by_cases hc : c = 0
  · rw [if_pos hc, hc, disturbed_zero]
    split
    · next hx => rw [hx]
    · rfl
  · rw [if_neg hc]
    exact Memory.stored_put h a x _

end Stored

section Copies

variable {epoch : Nat} {m : Memory} {a b : Nat}

/-- What a word read with the bits `c` of it changed is copied as (R133). -/
def Memory.copyOf (epoch : Nat) (m : Memory) (a : Nat) (c : Bits39) : StoredWord :=
  copied (outcomeOf (disturbed (Memory.stored epoch m a) c))

/-- The bank after the copy of one word (R133). -/
def Memory.copyWord (epoch : Nat) (m : Memory) (a b : Nat) (c : Bits39) : Memory :=
  Memory.put (Memory.disturb epoch m a c) b (Memory.copyOf epoch m a c)

theorem Memory.copyWord_wf (h : Memory.wf m = true) (c : Bits39) :
    Memory.wf (Memory.copyWord epoch m a b c) = true :=
  Memory.put_wf _ _ _ (Memory.disturb_wf epoch m a c h)

theorem Memory.stored_copyWord (h : Memory.wf m = true) (c : Bits39) (x : Nat) :
    Memory.stored epoch (Memory.copyWord epoch m a b c) x =
      if x = b then Memory.copyOf epoch m a c
      else if x = a then disturbed (Memory.stored epoch m a) c else Memory.stored epoch m x := by
  rw [Memory.copyWord, Memory.stored_put (Memory.disturb_wf epoch m a c h), Memory.stored_disturb h]

/-- A block copy copies its words one after the other, and notes a word written poisoned (R133, R153). -/
theorem Memory.copyWords_cons (h : Memory.wf m = true) (c : Bits39) (cs : List Bits39) :
    Memory.copyWords epoch m a b (c :: cs) =
      ((Memory.copyWords epoch (Memory.copyWord epoch m a b c) (a + 1) (b + 1) cs).1,
        decide (Memory.copyOf epoch m a c = ⟨none, 0⟩) ||
          (Memory.copyWords epoch (Memory.copyWord epoch m a b c) (a + 1) (b + 1) cs).2) := by
  have hread : Memory.readWord epoch (Memory.disturb epoch m a c) a =
      outcomeOf (disturbed (Memory.stored epoch m a) c) := by
    rw [Memory.readWord, Memory.stored_disturb h, if_pos rfl]
  rw [Memory.copyWords, hread, Memory.copyWord, Memory.copyOf]
  cases outcomeOf (disturbed (Memory.stored epoch m a) c) <;> rfl

/-- The copy of one word leaves every other word as it was (R133). -/
theorem Memory.stored_copyWord_of_ne (h : Memory.wf m = true) (c : Bits39) {x : Nat} (ha : x ≠ a) (hb : x ≠ b) :
    Memory.stored epoch (Memory.copyWord epoch m a b c) x = Memory.stored epoch m x := by
  rw [Memory.stored_copyWord h, if_neg hb, if_neg ha]

theorem Memory.copyOf_copyWord_of_ne (h : Memory.wf m = true) (c d : Bits39) {x : Nat} (ha : x ≠ a) (hb : x ≠ b) :
    Memory.copyOf epoch (Memory.copyWord epoch m a b c) x d = Memory.copyOf epoch m x d := by
  rw [Memory.copyOf, Memory.stored_copyWord_of_ne h c ha hb, Memory.copyOf]

/-- The words from `a` on, read with the changed bits of `l`, are copied to those from `b` on (R133). -/
structure CopiedWords (epoch : Nat) (m m' : Memory) (a b : Nat) (l : List Bits39) : Prop where
  source : ∀ i (hi : i < l.length), Memory.stored epoch m' (a + i) = disturbed (Memory.stored epoch m (a + i)) l[i]
  target : ∀ i (hi : i < l.length), Memory.stored epoch m' (b + i) = Memory.copyOf epoch m (a + i) l[i]
  others : ∀ x, (∀ i < l.length, x ≠ a + i ∧ x ≠ b + i) → Memory.stored epoch m' x = Memory.stored epoch m x

/-- One word is copied, and then the rest of the range. -/
theorem CopiedWords.cons {m' : Memory} {c : Bits39} {cs : List Bits39} (h : Memory.wf m = true)
    (hapart : a + (cs.length + 1) ≤ b ∨ b + (cs.length + 1) ≤ a)
    (hrest : CopiedWords epoch (Memory.copyWord epoch m a b c) m' (a + 1) (b + 1) cs) :
    CopiedWords epoch m m' a b (c :: cs) := by
  refine ⟨fun i hi => ?_, fun i hi => ?_, fun x hx => ?_⟩
  · cases i with
    | zero =>
      rw [Nat.add_zero, hrest.others a fun i hi => by omega, Memory.stored_copyWord h, if_neg (by omega), if_pos rfl]
      rfl
    | succ j =>
      have hj := Nat.lt_of_succ_lt_succ hi
      rw [show a + (j + 1) = a + 1 + j by omega, hrest.source j hj,
        Memory.stored_copyWord_of_ne h c (by omega) (by omega)]
      rfl
  · cases i with
    | zero =>
      rw [Nat.add_zero, hrest.others b fun i hi => by omega, Memory.stored_copyWord h, if_pos rfl]
      rfl
    | succ j =>
      have hj := Nat.lt_of_succ_lt_succ hi
      rw [show b + (j + 1) = b + 1 + j by omega, show a + (j + 1) = a + 1 + j by omega, hrest.target j hj,
        Memory.copyOf_copyWord_of_ne h c _ (by omega) (by omega)]
      rfl
  · have hfirst : x ≠ a ∧ x ≠ b := hx 0 (Nat.succ_pos _)
    rw [hrest.others x fun i hi => ?_, Memory.stored_copyWord_of_ne h c hfirst.1 hfirst.2]
    have := hx (i + 1) (Nat.succ_lt_succ hi)
    omega

/-- A block copy copies every word, where its two ranges lie apart (R133). -/
theorem Memory.copiedWords_copyWords (l : List Bits39) (h : Memory.wf m = true)
    (hapart : a + l.length ≤ b ∨ b + l.length ≤ a) :
    CopiedWords epoch m (Memory.copyWords epoch m a b l).1 a b l := by
  induction l generalizing m a b with
  | nil => exact ⟨nofun, nofun, fun _ _ => rfl⟩
  | cons c cs ih =>
    rw [Memory.copyWords_cons h]
    rw [List.length_cons] at hapart
    exact .cons h hapart (ih (Memory.copyWord_wf h c) (by omega))

/-- A block copy notes whether some word was written poisoned (R153). -/
theorem Memory.copyWords_bad_iff (l : List Bits39) (h : Memory.wf m = true)
    (hapart : a + l.length ≤ b ∨ b + l.length ≤ a) :
    (Memory.copyWords epoch m a b l).2 = true ↔
      ∃ i, ∃ hi : i < l.length, (Memory.copyOf epoch m (a + i) l[i] = ⟨none, 0⟩) := by
  induction l generalizing m a b with
  | nil => simp [Memory.copyWords]
  | cons c cs ih =>
    rw [List.length_cons] at hapart
    rw [Memory.copyWords_cons h, Bool.or_eq_true, decide_eq_true_eq,
      ih (Memory.copyWord_wf h c) (by omega)]
    constructor
    · rintro (hbad | ⟨j, hj, hbad⟩)
      · exact ⟨0, Nat.succ_pos _, hbad⟩
      · rw [Memory.copyOf_copyWord_of_ne h c _ (by omega) (by omega)] at hbad
        exact ⟨j + 1, Nat.succ_lt_succ hj, show a + (j + 1) = a + 1 + j by omega ▸ hbad⟩
    · rintro ⟨i, hi, hbad⟩
      cases i with
      | zero => exact Or.inl hbad
      | succ j =>
        have hj := Nat.lt_of_succ_lt_succ hi
        rw [show a + (j + 1) = a + 1 + j by omega] at hbad
        refine Or.inr ⟨j, hj, ?_⟩
        rw [Memory.copyOf_copyWord_of_ne h c _ (by omega) (by omega)]
        exact hbad

end Copies

end Sys2Proof.Machine
end
section
/-!
The Relocation Engine's work in the rules' own terms (R54, R133, R139, R141, R144, R150, R153): RELOCATION_START and
BLOCK_COPY_COMPLETE.
-/

namespace Sys2Proof.Machine

section Starting

variable {s : State} {src tgt : Extent} {rest free : List Extent} {h : Handle} {i : Nat}

/-- The start of a relocation of the heads of the two lists (R139). -/
theorem State.startRelocation_eq (hl : s.relocList = src :: rest) (hf : s.freeList = tgt :: free)
    (hsrc : (s.entry src).st = .bound h i) : s.startRelocation src tgt =
      { s with
        rle := .copying src tgt 0
        relocList := rest
        freeList := free
        extents := Tab.upd (Tab.upd s.extents src fun x => { x with st := .moving h i }) tgt
          fun x => { x with st := .target } } := by
  have hmoving : s.updExtent src Entry.toMoving = s.updExtent src fun x => { x with st := .moving h i } := by
    refine congrArg (fun x => { s with extents := x }) (Tab.upd_congr _ _ ?_)
    rw [Entry.toMoving, show (Tab.get s.extents src).st = .bound h i from hsrc]
  rw [State.startRelocation, hmoving, hl, hf]
  rfl

theorem exec_relocationStart (hn : s.resetn = false) (hr : s.rle = .idle ∨ s.rle = .waiting)
    (hl : s.relocList = src :: rest) (hf : s.freeList = tgt :: free) :
    exec .relocationStart s = .next (s.startRelocation src tgt).settle := by
  rw [show exec .relocationStart s = execRelocationStart s from rfl, execRelocationStart, hn, hl, hf]
  rcases hr with hr | hr <;> rw [hr]

end Starting

section Blocks

variable (s : State)

theorem State.blockWord_eq (e : Extent) (block i : Nat) : s.blockWord e block i = s.blockAddr e block + i := by
  unfold State.blockWord State.blockAddr State.bankAddr
  omega

variable {s}

/-- Blocks of two extents lie apart in the bank (R23, R178). -/
theorem State.blockAddr_apart {e f : Extent} (hne : e ≠ f) {block : Nat} (hb : block < s.blocksPerExtent) :
    s.blockAddr e block + 16 ≤ s.blockAddr f block ∨ s.blockAddr f block + 16 ≤ s.blockAddr e block := by
  have hwords : s.wordsPerExtent = 16 * s.blocksPerExtent := by
    unfold State.wordsPerExtent State.blocksPerExtent
    omega
  have hbelow : ∀ x y : Extent, x < y → s.blockAddr x block + 16 ≤ s.blockAddr y block := by
    intro x y hxy
    have := Nat.mul_le_mul_right s.wordsPerExtent (Nat.succ_le_of_lt (Fin.lt_def.1 hxy))
    rw [Nat.succ_mul] at this
    unfold State.blockAddr State.bankAddr
    omega
  exact (lt_or_gt_of_ne hne).imp (hbelow e f) (hbelow f e)

/-- The bank after the copy of a block, word by word (R133). -/
theorem CopiedWords.copyDone {m : Memory} {src tgt : Extent} {ptr : Nat} {ch : Vector Bits39 16}
    (h : CopiedWords s.epoch s.mem m (s.blockAddr src ptr) (s.blockAddr tgt ptr) ch.toList) :
    CopyDone s m src tgt ptr ch := by
  have hlen : ch.toList.length = 16 := ch.length_toList
  refine ⟨fun i => ?_, fun i => ?_, fun x hx => ?_⟩
  · rw [s.blockWord_eq]
    exact h.source i (i.isLt.trans_eq hlen.symm)
  · rw [s.blockWord_eq, s.blockWord_eq]
    exact h.target i (i.isLt.trans_eq hlen.symm)
  · refine h.others x fun i hi =>
      ⟨fun he => hx (Or.inl ⟨i, hi.trans_eq hlen, ?_⟩), fun he => hx (Or.inr ⟨i, hi.trans_eq hlen, ?_⟩)⟩
    · rw [s.blockWord_eq, he]
    · rw [s.blockWord_eq, he]

theorem Access.releaseBlock_eq_afterBlock (x : Access) : x.releaseBlock = x.afterBlock := by
  cases x with
  | stalled c a => cases c <;> rfl
  | idle | issued | orphaned => rfl

theorem Access.busyOn_eq_presentedOn (e : Extent) (x : Access) : x.busyOn e = x.presentedOn e := by
  cases x <;> rfl

variable {src tgt : Extent} {ptr : Nat} {ch : Vector Bits39 16} {bad : Bool}

/-- A block copied: the bank as R133 says, and the rest of the part as R54, R141 and R153 say. -/
theorem State.copyBlock_eq (hmem : s.MemCanonical) (hne : src ≠ tgt) (hptr : ptr < s.blocksPerExtent)
    (hbad : bad = true ↔ ∃ i : Fin 16,
      copied (outcomeOf (disturbed (s.word (s.blockWord src ptr i.val)) (Tab.get ch i))) = ⟨none, 0⟩) :
    ∃ m, CopyDone s m src tgt ptr ch ∧ s.copyBlock src tgt ptr ch = s.blockCopied m tgt bad := by
  have hlen : ch.toList.length = 16 := ch.length_toList
  have hapart := hlen.symm ▸ s.blockAddr_apart hne hptr
  have hflag : (Memory.copyWords s.epoch s.mem (s.blockAddr src ptr) (s.blockAddr tgt ptr) ch.toList).2 = bad := by
    rw [Bool.eq_iff_iff, Memory.copyWords_bad_iff _ hmem hapart, hbad]
    simp only [s.blockWord_eq]
    exact ⟨fun ⟨i, hi, hw⟩ => ⟨⟨i, hi.trans_eq hlen⟩, hw⟩, fun ⟨i, hw⟩ => ⟨i, i.isLt.trans_eq hlen.symm, hw⟩⟩
  refine ⟨_, (Memory.copiedWords_copyWords ch.toList hmem hapart).copyDone, ?_⟩
  unfold State.copyBlock State.blockCopied
  dsimp only
  rw [hflag]
  simp only [Access.releaseBlock_eq_afterBlock]
  cases bad <;> rfl

theorem State.port_blockCopied (m : Memory) (p : Port) :
    (s.blockCopied m tgt bad).port p = { s.port p with access := (s.port p).access.afterBlock } :=
  Tab.get_mapAll _ _ _

/-- The engine after a block of a relocation in progress (R141, R144). -/
theorem State.rleAfterCopy_blockCopied (m : Memory) :
    (s.blockCopied m tgt bad).rleAfterCopy src tgt ptr =
      if ptr + 1 < s.blocksPerExtent then .copying src tgt (ptr + 1)
      else .cutover src tgt (ptr + 1) PortSet.all
        (PortSet.of fun p => !(s.port p).access.afterBlock.presentedOn src)
        (PortSet.of fun p => (s.port p).access.afterBlock.presentedOn src) .notRequested := by
  simp only [State.rleAfterCopy, State.enterCutover, State.port_blockCopied, Access.busyOn_eq_presentedOn]
  rfl

end Blocks

section Completions

variable {s : State} {src tgt : Extent} {ptr : Nat} {ch : Vector Bits39 16}

theorem exec_blockCopyComplete_copying (hn : s.resetn = false) (hu : s.unit = some .copy)
    (hr : s.rle = .copying src tgt ptr) : exec (.blockCopyComplete ch) s =
      .next (State.settle { s.copyBlock src tgt ptr ch with
        rle := (s.copyBlock src tgt ptr ch).rleAfterCopy src tgt ptr }) := by
  rw [show exec (.blockCopyComplete ch) s = execBlockCopyComplete ch s from rfl, execBlockCopyComplete, hn, hu, hr]

theorem exec_blockCopyComplete_abandoning {o : DrainOwner} (hn : s.resetn = false) (hu : s.unit = some .copy)
    (hr : s.rle = .abandoning src tgt ptr true o) : exec (.blockCopyComplete ch) s =
      .next (State.settle (State.leaveOwner
        { s.copyBlock src tgt ptr ch with rle := .abandoning src tgt (ptr + 1) false o } o)) := by
  rw [show exec (.blockCopyComplete ch) s = execBlockCopyComplete ch s from rfl, execBlockCopyComplete, hn, hu, hr]

/-- The engine leaves the drain of a window: the last member ends it as DRAIN_END does (R94, R150). -/
theorem State.settle_leaveWindow_rle {w : WSlot} (hrle : (s.window w).drain.has .rle = true) (hn : s.resetn = false)
    (hclear : s.underClear w = false) (hret : (s.window w).retiring ≠ []) {u : State}
    (hu : u = s.updWindow w fun x => { x with drain := x.drain.remove .rle }) :
    ((s.window w).drain.remove .rle ≠ DrainSet.empty → (s.leaveWindow w .rle).settle = u.settle) ∧
      ((s.window w).drain.remove .rle = DrainSet.empty →
        .next (s.leaveWindow w .rle).settle = exec (.drainEnd w) u) := by
  refine ⟨fun hmore => ?_, fun hlast => ?_⟩
  · rw [State.leaveWindow_stays s hrle hmore, hu]
  · have hwindow : u.window w = { s.window w with drain := (s.window w).drain.remove .rle } := by
      rw [hu, State.window_updWindow_self]
    rw [State.leaveWindow_ends s hrle hlast, ← hu, State.endDrain_eq_drainEnded]
    refine (exec_drainEnd (hu ▸ hn) ?_ (hu ▸ hclear) (Or.inr ?_)).symm
    · rw [hwindow]
      exact hlast
    · rw [hwindow]
      exact hret

/-- The engine leaves the drain of CLEAR: the last member ends it as CLEAR_DRAIN_END does (R150, R173). -/
theorem State.settle_leaveClear_rle {c : ClearRecord} (hc : s.clearRec = some c) (hrle : c.drain.has .rle = true)
    (hn : s.resetn = false) {u : State} (hu : u = { s with clearRec := some { c with drain := c.drain.remove .rle } }) :
    (c.drain.remove .rle ≠ DrainSet.empty → (s.leaveClear .rle).settle = u.settle) ∧
      (c.drain.remove .rle = DrainSet.empty → .next (s.leaveClear .rle).settle = exec .clearDrainEnd u) := by
  refine ⟨fun hmore => ?_, fun hlast => ?_⟩
  · rw [State.leaveClear_stays s hc hrle hmore, hu]
  · have hrec : u.clearRec = some { c with drain := c.drain.remove .rle } := by rw [hu]
    rw [State.leaveClear_ends s hc hrle hlast, ← hu, State.endClearDrain_eq_clearEnded u hrec]
    exact (exec_clearDrainEnd (hu ▸ hn) hrec hlast).symm

/-- Settles O53: the bank by `State.copyBlock_eq`, then the engine's record, or the drain set that it leaves. -/
theorem relocationCopiesBlocks : Obligations.RelocationCopiesBlocks := by
  intro s hn
  refine ⟨fun src tgt rest free h i hr hl hf hsrc _ => ?_,
    fun hu hmem src tgt ptr ch bad hne hptr hbad => ?_⟩
  · rw [exec_relocationStart hn hr hl hf, State.startRelocation_eq hl hf hsrc]
  obtain ⟨m, hdone, hcopy⟩ := State.copyBlock_eq hmem hne hptr hbad
  refine ⟨fun hr => ⟨m, hdone, ?_⟩, fun w hr hrle hclear hret => ⟨m, _, hdone, rfl, ?_⟩,
    fun c hr hc hrle => ⟨m, _, hdone, rfl, ?_⟩⟩
  · rw [exec_blockCopyComplete_copying hn hu hr, hcopy, State.rleAfterCopy_blockCopied]
  · rw [exec_blockCopyComplete_abandoning hn hu hr, hcopy]
    obtain ⟨hstays, hends⟩ := State.settle_leaveWindow_rle (w := w)
      (s := { s.blockCopied m tgt bad with rle := .abandoning src tgt (ptr + 1) false (.window w) })
      hrle hn hclear hret rfl
    exact ⟨fun hmore => congrArg _ (hstays hmore), hends⟩
  · rw [exec_blockCopyComplete_abandoning hn hu hr, hcopy]
    obtain ⟨hstays, hends⟩ := State.settle_leaveClear_rle
      (s := { s.blockCopied m tgt bad with rle := .abandoning src tgt (ptr + 1) false .clear })
      hc hrle hn rfl
    exact ⟨fun hmore => congrArg _ (hstays hmore), hends⟩

end Completions

end Sys2Proof.Machine
end
section
/-!
MIGRATE in the rules' own terms (R155, R167): its checks, and the arbiter's turn (R67) kept apart from what happens at
once.
-/

namespace Sys2Proof.Machine

section Turn

variable (s : State) (p : Port)

theorem State.rleSettle_served : (s.served p).rleSettle = s.rleSettle.served p := by
  have hrle : (s.served p).rle = s.rle := rfl
  have hreloc : (s.served p).relocList = s.relocList := rfl
  have hfree : (s.served p).freeList = s.freeList := rfl
  rw [State.rleSettle, hrle, hreloc, hfree, State.rleSettle]
  cases s.rle with
  | copying | cutover | abandoning => rfl
  | idle | waiting =>
    cases s.relocList with
    | nil => rfl
    | cons src rest => cases s.freeList <;> rfl

theorem State.wpeTake_served : (s.served p).wpeTake = s.wpeTake.served p := by
  have hwpe : (s.served p).wpe = s.wpe := rfl
  have hready : (s.served p).bankReady = s.bankReady := rfl
  have hwipe : (s.served p).wipeList = s.wipeList := rfl
  rw [State.wpeTake, hwpe, hready, hwipe, State.wpeTake]
  split <;> rfl

theorem State.grantMemory_served : (s.served p).grantMemory = s.grantMemory.served p := by
  have hdue : (s.served p).grantDue = s.grantDue := rfl
  have hpick : (s.served p).pickRequester = s.pickRequester := rfl
  rw [State.grantMemory, hdue, hpick, State.grantMemory]
  split
  · cases s.pickRequester with
    | none => rfl
    | some q => cases q <;> rfl
  · rfl

/-- What happens at once after a take does not look at the arbiter's turn (R67). -/
theorem State.settle_served : (s.served p).settle = s.settle.served p := by
  rw [State.settle, State.rleSettle_served, State.wpeTake_served, State.grantMemory_served, State.settle]

end Turn

section ExtentArguments

variable {a : Word}

theorem extentArg_of_eq {e : Extent} (h : a.toNat = e.val) : extentArg a = some e := by
  have hlt : a.toNat < 1024 := h.trans_lt e.isLt
  rw [extentArg, dif_pos hlt, Option.some.injEq, Fin.ext_iff]
  exact h

theorem extentArg_of_le (h : 1024 ≤ a.toNat) : extentArg a = none := by
  rw [extentArg, dif_neg (Nat.not_lt.2 h)]

end ExtentArguments

section Migrate

variable {s : State} {p : Port} {e : Extent}

/-- The supervisor's command passes the privilege step (R71). -/
theorem supervisorOnly_of_eq (hp : p = s.supervisor) (body : State → Verdict) : supervisorOnly p s body = body s :=
  if_pos (decide_eq_true hp)

theorem ExtState.isBound_of_eq {x : ExtState} {h : Handle} {i : Nat} (hx : x = .bound h i) : x.isBound = true := by
  rw [hx, ExtState.isBound]

theorem ExtState.isBound_of_ne {x : ExtState} (hx : ∀ h i, x ≠ .bound h i) : x.isBound = false := by
  cases x with
  | bound h i => exact absurd rfl (hx h i)
  | free | moving | target | retiring | dirty | wiping | quarantined => rfl

theorem migrateVerdict_badRange (h : 1024 ≤ (s.args p).w0.toNat) : migrateVerdict p s = .refuse .badRange := by
  rw [migrateVerdict, extentArg_of_le h]

/-- The two checks of MIGRATE, and its effect (R167). -/
theorem migrateVerdict_eq (he : (s.args p).w0.toNat = e.val) : migrateVerdict p s =
    checks [((s.entry e).st.isBound, .state), (decide (e ∉ s.relocList), .duplicate)]
      (.finished (s.listForRelocation e).settle Words4.zero) := by
  rw [migrateVerdict, extentArg_of_eq he]

/-- Settles O41: the checks of the verdict in their order, and the engine's start in the settling of the take. -/
theorem migrateListsExtent : Obligations.MigrateListsExtent := by
  intro s p hp hdue
  have hbody : supervisorOnly p (s.served p) (migrateVerdict p) = migrateVerdict p (s.served p) :=
    supervisorOnly_of_eq (s := s.served p) hp _
  refine ⟨fun hrange => ?_, fun e he => ?_⟩
  · exact exec_of_refuse rfl rfl hdue (hbody.trans (migrateVerdict_badRange (s := s.served p) hrange))
  have hverdict := hbody.trans (migrateVerdict_eq (s := s.served p) he)
  refine ⟨fun hunbound => ?_, fun h i hbound => ?_⟩
  · exact exec_of_refuse rfl rfl hdue (hverdict.trans (checks_fail (ExtState.isBound_of_ne hunbound)))
  have hpassed := hverdict.trans (checks_pass (ExtState.isBound_of_eq hbound))
  refine ⟨fun hlisted => ?_, fun hnew => ?_⟩
  · exact exec_of_refuse rfl rfl hdue (hpassed.trans (checks_fail (decide_eq_false (not_not.2 hlisted))))
  · have hsettle : ((s.served p).listForRelocation e).settle = (s.listForRelocation e).settle.served p :=
      (s.listForRelocation e).settle_served p
    exact exec_of_finished rfl rfl hdue (hpassed.trans
      ((checks_pass (decide_eq_true hnew)).trans (congrArg (Verdict.finished · Words4.zero) hsettle)))

end Migrate

end Sys2Proof.Machine
end
section
/-!
The supervisor's commands on accounts and ports in the rules' own terms (R158, R160, R162): SET QUOTA, SET RANK, HOLD
and RESUME.
-/

namespace Sys2Proof.Machine

section Privileged

variable {s t : State} {p : Port} {c : Instr} {isCode : BitVec 8 → Bool} {body : State → Verdict} {code : BitVec 8}
  {st : Status} {res : Words4}

/-- A due command of the supervisor answers as its own rule says (R71, R72). -/
theorem exec_of_supervisor (hp : p = s.supervisor)
    (hc : takenCommand c = some (p, isCode, fun u => supervisorOnly p u body)) (hcode : isCode code = true)
    (hdue : s.Due p code) : exec c s = s.answerOf p (body (s.served p)) := by
  rw [exec_of_due hc hcode hdue, supervisorOnly_of_eq (s := s.served p) hp]

theorem exec_of_supervisor_refuse (hp : p = s.supervisor)
    (hc : takenCommand c = some (p, isCode, fun u => supervisorOnly p u body)) (hcode : isCode code = true)
    (hdue : s.Due p code) (hbody : body (s.served p) = .refuse st) :
    exec c s = .next (s.answered p st Words4.zero) :=
  exec_of_refuse hc hcode hdue ((supervisorOnly_of_eq (s := s.served p) hp body).trans hbody)

theorem exec_of_supervisor_finished (hp : p = s.supervisor)
    (hc : takenCommand c = some (p, isCode, fun u => supervisorOnly p u body)) (hcode : isCode code = true)
    (hdue : s.Due p code) (hbody : body (s.served p) = .finished (t.served p) res) :
    exec c s = .next (t.answered p .ok res) :=
  exec_of_finished hc hcode hdue ((supervisorOnly_of_eq (s := s.served p) hp body).trans hbody)

end Privileged

section Accounts

variable {s : State} {p a : Port} {r : Fin 4}

theorem lt_of_portArg_eq_some {x : Word} {q : Port} (h : portArg x = some q) : x.toNat < 6 := by
  by_contra hle
  rw [portArg_of_le (Nat.not_lt.1 hle)] at h
  cases h

theorem rankArg_of_eq {x : Word} (h : x.toNat = r.val) : rankArg x = some r := by
  have hlt : x.toNat < 4 := h.trans_lt r.isLt
  rw [rankArg, dif_pos hlt, Option.some.injEq, Fin.ext_iff]
  exact h

theorem rankArg_of_le {x : Word} (h : 4 ≤ x.toNat) : rankArg x = none := by
  rw [rankArg, dif_neg (Nat.not_lt.2 h)]

/-- SET QUOTA refuses where an argument is out of its range (R158). -/
theorem setQuotaVerdict_badRange
    (h : ¬ ((s.args p).w0.toNat < 6 ∧ (s.args p).w1.toNat ≤ 16 ∧ (s.args p).w2.toNat ≤ 1024)) :
    setQuotaVerdict p s = .refuse .badRange := by
  unfold setQuotaVerdict
  cases hport : portArg (s.args p).w0 with
  | none => rfl
  | some a =>
    have hagent := lt_of_portArg_eq_some hport
    by_cases hwin : (s.args p).w1.toNat ≤ 16
    · have hext : ¬ (s.args p).w2.toNat ≤ 1024 := fun hext => h ⟨hagent, hwin, hext⟩
      exact (checks_pass (decide_eq_true hwin)).trans (checks_fail (decide_eq_false hext))
    · exact checks_fail (decide_eq_false hwin)

theorem setQuotaVerdict_finished (ha : (s.args p).w0.toNat = a.val) (hwin : (s.args p).w1.toNat ≤ 16)
    (hext : (s.args p).w2.toNat ≤ 1024) : setQuotaVerdict p s = .finished
      (s.updAccount a fun x =>
        { x with windowQuota := (s.args p).w1.toNat, extentQuota := (s.args p).w2.toNat }) Words4.zero := by
  unfold setQuotaVerdict
  rw [portArg_of_eq ha]
  exact (checks_pass (decide_eq_true hwin)).trans (checks_pass (decide_eq_true hext))

/-- SET RANK refuses where an argument is out of its range (R158). -/
theorem setRankVerdict_badRange (h : ¬ ((s.args p).w0.toNat < 6 ∧ (s.args p).w1.toNat < 4)) :
    setRankVerdict p s = .refuse .badRange := by
  unfold setRankVerdict
  cases hport : portArg (s.args p).w0 with
  | none => rfl
  | some a =>
    have hrank : ¬ (s.args p).w1.toNat < 4 := fun hrank => h ⟨lt_of_portArg_eq_some hport, hrank⟩
    rw [rankArg_of_le (Nat.not_lt.1 hrank)]

theorem setRankVerdict_finished (ha : (s.args p).w0.toNat = a.val) (hr : (s.args p).w1.toNat = r.val) :
    setRankVerdict p s = .finished (s.updAccount a fun x => { x with rank := r }) Words4.zero := by
  unfold setRankVerdict
  rw [portArg_of_eq ha, rankArg_of_eq hr]

/-- Settles O37: each command refuses by its ranges, and else replaces the named fields of one account. -/
theorem quotaAndRankAreSet : Obligations.QuotaAndRankAreSet := by
  intro s p hp
  refine ⟨fun hdue => ⟨fun hrange => ?_, fun a ha hwin hext => ?_⟩,
    fun hdue => ⟨fun hrange => ?_, fun a r ha hr => ?_⟩⟩
  · exact exec_of_supervisor_refuse hp rfl rfl hdue (setQuotaVerdict_badRange (s := s.served p) hrange)
  · exact exec_of_supervisor_finished hp rfl rfl hdue (setQuotaVerdict_finished (s := s.served p) ha hwin hext)
  · exact exec_of_supervisor_refuse hp rfl rfl hdue (setRankVerdict_badRange (s := s.served p) hrange)
  · exact exec_of_supervisor_finished hp rfl rfl hdue (setRankVerdict_finished (s := s.served p) ha hr)

end Accounts

section Holds

variable {s : State} {p q : Port}

/-- HOLD refuses no port and the Supervisor Port (R160). -/
theorem holdVerdict_badRange (h : 6 ≤ (s.args p).w0.toNat ∨ (s.args p).w0.toNat = s.supervisor.val) :
    holdVerdict p s = .refuse .badRange := by
  unfold holdVerdict
  rcases h with h | h
  · rw [portArg_of_le h]
  · rw [portArg_of_eq h]
    exact if_pos rfl

theorem holdVerdict_named (h : (s.args p).w0.toNat = q.val) (hq : q ≠ s.supervisor) :
    holdVerdict p s = s.holdPort q := by
  unfold holdVerdict
  rw [portArg_of_eq h]
  exact if_neg hq

/-- The flag set and HOLD added are one change of the port's record (R160). -/
theorem State.setHold_eq (s : State) (q : Port) : s.setHold q =
    s.updPort q fun u => { u with hold := true, attention := KindSet.add u.attention .hold } :=
  s.updPort_updPort _ _

theorem State.holdPort_held (h : (s.port q).hold = true) : s.holdPort q = .finished s Words4.zero := if_pos h

theorem State.holdPort_idle (h : (s.port q).hold = false) (hidle : (s.port q).access = .idle) :
    s.holdPort q = .finished
      (s.updPort q fun u => { u with hold := true, attention := KindSet.add u.attention .hold }) Words4.zero := by
  rw [State.holdPort, h, if_neg Bool.false_ne_true, if_pos hidle, State.setHold_eq]

/-- With an access in flight the HOLD waits for its end (R160, R161). -/
theorem State.holdPort_waits (h : (s.port q).hold = false) (hbusy : (s.port q).access ≠ .idle) :
    s.holdPort q = .inProgress (s.updPort q fun u =>
      { u with hold := true, attention := KindSet.add u.attention .hold, holdWait := .present true }) := by
  rw [State.holdPort, h, if_neg Bool.false_ne_true, if_neg hbusy, State.setHold_eq, State.updPort_updPort]

/-- Settles O39: after its range check HOLD has three cases, by the flag and the access of the named port. -/
theorem holdStopsPort : Obligations.HoldStopsPort := by
  intro s p hp hdue
  refine ⟨fun hrange => ?_, fun q hq hqp => ⟨fun hheld => ?_, fun hfree hidle => ?_, fun hfree hbusy => ?_⟩⟩
  · have hport := hrange.imp_right fun h => h.trans (congrArg Fin.val hp)
    exact exec_of_supervisor_refuse hp rfl rfl hdue (holdVerdict_badRange (s := s.served p) hport)
  all_goals
    have hnamed := holdVerdict_named (s := s.served p) hq (hp ▸ hqp)
  · exact exec_of_supervisor_finished hp rfl rfl hdue (hnamed.trans (State.holdPort_held (s := s.served p) hheld))
  · exact exec_of_supervisor_finished hp rfl rfl hdue
      (hnamed.trans (State.holdPort_idle (s := s.served p) hfree hidle))
  · rw [exec_of_supervisor hp rfl rfl hdue, hnamed, State.holdPort_waits (s := s.served p) hfree hbusy]
    rfl

theorem resumeVerdict_badRange (h : 6 ≤ (s.args p).w0.toNat) : resumeVerdict p s = .refuse .badRange := by
  rw [resumeVerdict, portArg_of_le h]

theorem resumeVerdict_named (h : (s.args p).w0.toNat = q.val) :
    resumeVerdict p s = .finished (s.resumePort q) Words4.zero := by
  rw [resumeVerdict, portArg_of_eq h]

theorem State.resumePort_held (h : (s.port q).hold = true) : s.resumePort q = s.updPort q fun u =>
    { u with hold := false, holdWait := .absent, attention := KindSet.add u.attention .hold } := by
  rw [State.resumePort, h, if_pos rfl]
  exact s.updPort_updPort _ _

/-- A port that is neither held nor waited for stays as it is (R162). -/
theorem State.resumePort_free (h : (s.port q).hold = false) (hwait : (s.port q).holdWait = .absent) :
    s.resumePort q = s := by
  have hsame : Tab.upd s.ports q (fun u => { u with hold := false, holdWait := .absent }) = s.ports := by
    refine Tab.ext fun r => ?_
    rw [Tab.get_upd]
    split
    · next hr =>
      rw [hr, ← h, ← hwait]
      rfl
    · rfl
  rw [State.resumePort, h, if_neg Bool.false_ne_true, State.updPort, hsame]

/-- Settles O40: RESUME has its range check, and then two cases by the flag of the named port. -/
theorem resumeLiftsHold : Obligations.ResumeLiftsHold := by
  intro s p hp hdue
  refine ⟨fun hrange => ?_, fun q hq => ⟨fun hheld => ?_, fun hfree hwait => ?_⟩⟩
  · exact exec_of_supervisor_refuse hp rfl rfl hdue (resumeVerdict_badRange (s := s.served p) hrange)
  all_goals
    have hnamed := resumeVerdict_named (s := s.served p) hq
  · exact exec_of_supervisor_finished hp rfl rfl hdue
      (hnamed.trans (congrArg (Verdict.finished · Words4.zero) (State.resumePort_held (s := s.served p) hheld)))
  · exact exec_of_supervisor_finished hp rfl rfl hdue
      (hnamed.trans (congrArg (Verdict.finished · Words4.zero) (State.resumePort_free (s := s.served p) hfree hwait)))

end Holds

section ForceClose

variable {s : State} {p : Port} {w : WSlot}

theorem forceCloseVerdict_noWindow (h : validHandle s (s.args p).w0 = none) :
    forceCloseVerdict p s = .refuse .noWindow := by
  unfold forceCloseVerdict
  rw [h]

theorem forceCloseVerdict_eq (hw : validHandle s (s.args p).w0 = some w) : forceCloseVerdict p s =
    checks [(decide ((s.window w).state = .opened), .state)]
      (.finished (s.closeWindow p true w).settle Words4.zero) := by
  unfold forceCloseVerdict
  rw [hw]

/-- Settles O22: behind its handle and the state of the window, FORCE CLOSE is the close by force of the rules. -/
theorem forceCloseEndsWindow : Obligations.ForceCloseEndsWindow := by
  intro s p hp hdue
  refine ⟨fun hnone => ?_, fun w hw => ⟨fun hs => ?_, fun o ho hs hwait => ?_⟩⟩
  · exact exec_of_supervisor_refuse hp rfl rfl hdue (forceCloseVerdict_noWindow (s := s.served p) hnone)
  all_goals
    have hverdict := forceCloseVerdict_eq (s := s.served p) hw
  · exact exec_of_supervisor_refuse hp rfl rfl hdue (hverdict.trans (checks_fail (decide_eq_false hs)))
  · have hclosed := State.closed_closeWindow (p := p) (forced := true) ho hwait
    have hbody : supervisorOnly p (s.served p) (forceCloseVerdict p) = forceCloseVerdict p (s.served p) :=
      supervisorOnly_of_eq (s := s.served p) hp _
    exact ⟨_, exec_of_settled rfl rfl hdue (congrArg State.lastServed hclosed.1.1)
      (hbody.trans (hverdict.trans (checks_pass (decide_eq_true hs)))), hclosed⟩

end ForceClose

end Sys2Proof.Machine
end
section
/-!
READ EXTENT and READ POOL in the rules' own terms (R169, R170, R177): the layouts of their result words and the figures
that stand in them.
-/

namespace Sys2Proof.Machine

section Numbers

theorem ExtState.code_eq_extentNumber (x : ExtState) : x.code = extentNumber x := by cases x <;> rfl

theorem ExtState.code_lt (x : ExtState) : x.code < 2 ^ 3 := by cases x <;> simp [ExtState.code]

theorem ExtState.causeCode_eq_causeNumber (x : ExtState) : x.causeCode = causeNumber x := by
  cases x with
  | quarantined c => cases c <;> rfl
  | free | bound | moving | target | retiring | dirty | wiping => rfl

theorem ExtState.causeCode_lt (x : ExtState) : x.causeCode < 2 ^ 2 := by
  cases x with
  | quarantined c => cases c <;> decide
  | free | bound | moving | target | retiring | dirty | wiping => exact Nat.two_pow_pos 2

theorem Rle.code_eq_rleNumber (r : Rle) : r.code = rleNumber r := by cases r <;> rfl

theorem Rle.code_lt (r : Rle) : r.code < 2 ^ 3 := by cases r <;> simp [Rle.code]

theorem Wpe.code_eq_wpeNumber (x : Wpe) : x.code = wpeNumber x := by cases x <;> rfl

theorem Wpe.code_lt (x : Wpe) : x.code < 2 ^ 2 := by cases x <;> simp [Wpe.code]

theorem Handle.word_lt (h : Handle) : h.word.toNat < 2 ^ 16 := by
  have hgen := h.gen.isLt
  have hslot := h.slot.isLt
  rw [h.word_toNat]
  omega

/-- The entries that pass a test, ascending, are a filter of all numbers. -/
theorem Tab.indices_eq_filter {α : Type} {n : Nat} (v : Vector α n) (test : Fin n → α → Bool) :
    Tab.indices v test = (List.finRange n).filter fun i => test i (Tab.get v i) := by
  have hfilter : ((List.finRange n).filter fun i => test i (Tab.get v i)).Pairwise (· < ·) :=
    (List.pairwise_lt_finRange n).filter _
  refine List.Perm.eq_of_pairwise (fun a b _ _ hab hba => absurd hab hba.asymm) (Tab.indices_pairwise v test) hfilter
    ((List.perm_ext_iff_of_nodup (Tab.indices_nodup v test) (hfilter.imp fun h => ne_of_lt h)).2 fun i => ?_)
  simp

end Numbers

section ReadExtent

variable {s : State} {p : Port} {e : Extent}

theorem readExtentVerdict_badRange (h : 1024 ≤ (s.args p).w0.toNat) :
    readExtentVerdict p s = .refuse .badRange := by
  rw [readExtentVerdict, extentArg_of_le h]

theorem readExtentVerdict_finished (h : (s.args p).w0.toNat = e.val) :
    readExtentVerdict p s = .finished s (s.extentWords e) := by
  rw [readExtentVerdict, extentArg_of_eq h]

/-- The fields of the entry's word (R177). -/
theorem State.layout_entry (s : State) (e : Extent) : Layout [(0, 3, (s.entry e).st.code), (8, 4, (s.entry e).count),
    (12, 1, (decide (e ∈ s.relocList)).toNat), (13, 1, (s.entry e).poisoned.toNat),
    (16, 2, (s.entry e).st.causeCode)] := by
  simp [Layout, FieldsApart]

/-- The fields of the place's word (R177). -/
theorem ExtState.layout_place (x : ExtState) : Layout [(0, 16, x.placeFields.1), (16, 7, x.placeFields.2)] := by
  simp [Layout, FieldsApart]

theorem ExtState.placeFields_of_place {x : ExtState} {h : Handle} {i : Nat} (hx : x.place = some (h, i)) :
    x.placeFields = (h.word.toNat, i) := by
  cases x with
  | bound | moving =>
    cases hx
    rfl
  | free | target | retiring | dirty | wiping | quarantined => cases hx

theorem ExtState.placeFields_of_none {x : ExtState} (hx : x.place = none) : x.placeFields = (0, 0) := by
  cases x with
  | bound | moving => cases hx
  | free | target | retiring | dirty | wiping | quarantined => rfl

/-- Settles O43: every part of the entry stands in a field that holds it. -/
theorem readExtentShowsEntry : Obligations.ReadExtentShowsEntry := by
  intro s p hp hdue
  refine ⟨fun hrange => ?_, fun e he hcount hthreshold => ?_⟩
  · exact exec_of_supervisor_refuse hp rfl rfl hdue (readExtentVerdict_badRange (s := s.served p) hrange)
  have hexec := exec_of_supervisor_finished (c := .readExtent p) (t := s) hp rfl rfl hdue
    (readExtentVerdict_finished (s := s.served p) he)
  refine ⟨s.extentWords e, hexec, ?_, ?_, ?_, ?_, ?_, fun h i hplace hi => ⟨?_, ?_⟩, fun hnone => ?_,
    packFields_low (by omega), rfl, zeroOutside_packFields (s.layout_entry e),
    zeroOutside_packFields (s.entry e).st.layout_place, zeroOutside_packFields (layout_low (by decide))⟩
  · rw [← ExtState.code_eq_extentNumber]
    exact field_packFields_of_lt (s.layout_entry e) (by simp) (ExtState.code_lt _)
  · exact field_packFields_of_lt (s.layout_entry e) (by simp) (by omega)
  · have hflag : (decide (e ∈ s.relocList)).toNat = if e ∈ s.relocList then 1 else 0 :=
      apply_ite Bool.toNat (e ∈ s.relocList) true false
    rw [← hflag]
    exact field_packFields_of_lt (s.layout_entry e) (by simp) (Bool.toNat_lt _)
  · exact field_packFields_of_lt (s.layout_entry e) (by simp) (Bool.toNat_lt _)
  · rw [← ExtState.causeCode_eq_causeNumber]
    exact field_packFields_of_lt (s.layout_entry e) (by simp) (ExtState.causeCode_lt _)
  · rw [← h.word_toNat]
    exact field_packFields_of_lt (s.entry e).st.layout_place (by simp [ExtState.placeFields_of_place hplace]) h.word_lt
  · exact field_packFields_of_lt (s.entry e).st.layout_place (by simp [ExtState.placeFields_of_place hplace]) (by omega)
  · have hword : (s.extentWords e).w1 =
        packFields [(0, 16, (s.entry e).st.placeFields.1), (16, 7, (s.entry e).st.placeFields.2)] := rfl
    rw [hword, ExtState.placeFields_of_none hnone]
    rfl

end ReadExtent

section ReadPool

variable (s : State)

/-- Two lengths in the low and the high half of a word (R177). -/
theorem layout_lengths (a b : Nat) : Layout [(0, 11, a), (16, 11, b)] := by
  simp [Layout, FieldsApart]

/-- The fields of the two engines' phases with source and target (R177). -/
theorem State.layout_phases : Layout [(0, 3, s.rle.code), (4, 10, s.rle.fields.1), (14, 10, s.rle.fields.2.1),
    (24, 2, s.wpe.code)] := by
  simp [Layout, FieldsApart]

/-- The fields of the two engines' pointers (R177). -/
theorem State.layout_pointers :
    Layout [(0, 11, s.rle.fields.2.2), (11, 10, s.wpe.fields.1), (21, 10, s.wpe.fields.2)] := by
  simp [Layout, FieldsApart]

theorem State.quarantineSize_eq : s.quarantineSize =
    ((List.finRange 1024).filter fun e => (s.entry e).st.isQuarantined).length := by
  rw [State.quarantineSize, Tab.indices_eq_filter]
  rfl

theorem State.quarantineSize_lt : s.quarantineSize < 2 ^ 11 := by
  rw [s.quarantineSize_eq]
  refine (List.length_filter_le _ _).trans_lt ?_
  rw [List.length_finRange]
  decide

theorem Rle.fields_of_none {r : Rle} (h : r.relocation = none) : r.fields = (0, 0, 0) := by
  rw [Rle.fields, h]

theorem Rle.fields_of_some {r : Rle} {src tgt : Extent} {n : Nat} (h : r.relocation = some (src, tgt, n)) :
    r.fields = (src.val, tgt.val, n) := by
  rw [Rle.fields, h]

/-- What READ POOL shows of the Relocation Engine's work (R170). -/
theorem State.poolWords_rle {a b n : Nat} (h : s.rle.fields = (a, b, n)) (ha : a < 2 ^ 10) (hb : b < 2 ^ 10)
    (hn : n < 2 ^ 11) :
    field s.poolWords.w2 4 10 = a ∧ field s.poolWords.w2 14 10 = b ∧ field s.poolWords.w3 0 11 = n :=
  ⟨field_packFields_of_lt s.layout_phases (by simp [h]) ha, field_packFields_of_lt s.layout_phases (by simp [h]) hb,
    field_packFields_of_lt s.layout_pointers (by simp [h]) hn⟩

/-- What READ POOL shows of the Wipe Engine's work (R170). -/
theorem State.poolWords_wpe {a b : Nat} (h : s.wpe.fields = (a, b)) (ha : a < 2 ^ 10) (hb : b < 2 ^ 10) :
    field s.poolWords.w3 11 10 = a ∧ field s.poolWords.w3 21 10 = b :=
  ⟨field_packFields_of_lt s.layout_pointers (by simp [h]) ha,
    field_packFields_of_lt s.layout_pointers (by simp [h]) hb⟩

/-- Settles O44: every length stands in a field that holds it, and the engines' figures by their phases. -/
theorem readPoolShowsFigures : Obligations.ReadPoolShowsFigures := by
  intro s p hp hdue hfree hwipe hreloc hptr hwriting hverifying
  have hexec : exec (.readPool p) s = .next (s.answered p .ok s.poolWords) :=
    exec_of_supervisor_finished (body := fun u => .finished u u.poolWords) (t := s) hp rfl rfl hdue rfl
  refine ⟨s.poolWords, hexec, ?_, ?_, ?_, ?_, ?_, ?_, fun hnone => ?_, fun src tgt n hsome => ?_, fun hidle => ?_,
    fun e b hw => ?_, fun e b f hv => ?_, zeroOutside_packFields (layout_lengths _ _),
    zeroOutside_packFields (layout_lengths _ _), zeroOutside_packFields s.layout_phases,
    zeroOutside_packFields s.layout_pointers⟩
  · exact field_packFields_of_lt (layout_lengths _ _) (by simp) (by omega)
  · exact field_packFields_of_lt (layout_lengths _ _) (by simp) (by omega)
  · rw [← s.quarantineSize_eq]
    exact field_packFields_of_lt (layout_lengths _ _) (by simp) s.quarantineSize_lt
  · exact field_packFields_of_lt (layout_lengths _ _) (by simp) (by omega)
  · rw [← Rle.code_eq_rleNumber]
    exact field_packFields_of_lt s.layout_phases (by simp) (Rle.code_lt _)
  · rw [← Wpe.code_eq_wpeNumber]
    exact field_packFields_of_lt s.layout_phases (by simp) (Wpe.code_lt _)
  · exact s.poolWords_rle (Rle.fields_of_none hnone) (by decide) (by decide) (by decide)
  · have hn := hptr src tgt n hsome
    exact s.poolWords_rle (Rle.fields_of_some hsome) src.isLt tgt.isLt (by omega)
  · exact s.poolWords_wpe (by rw [hidle, Wpe.fields]) (by decide) (by decide)
  · exact s.poolWords_wpe (by rw [hw, Wpe.fields]) e.isLt (hwriting e b hw)
  · exact s.poolWords_wpe (by rw [hv, Wpe.fields]) e.isLt (hverifying e b f hv)

end ReadPool

end Sys2Proof.Machine
end
section
/-!
The frame of every command (O56): the parts of the state that only some commands may change, what each shared operation
leaves of them, and that each command answers a next state.
-/

namespace Sys2Proof.Machine

section Frame

/-- What only some commands change: accounts, threshold, straps, RESETn, hold flags, the ARSTn pins, the bank and the
queue. -/
@[ext] structure Frame where
  accounts  : Vector Account 6
  threshold : Nat
  straps    : Straps
  resetn    : Bool
  hold      : Port → Bool
  arstn     : Port → Bool
  mem       : Memory
  pending   : List Instr

/-- Those parts of a state. -/
def State.frame (s : State) : Frame :=
  { accounts := s.accounts, threshold := s.threshold, straps := s.straps, resetn := s.resetn
    hold := fun q => (s.port q).hold, arstn := fun q => (s.port q).arstn, mem := s.mem, pending := s.pending }

/-- A port's hold flag and the level of its ARSTn are those of another record. -/
def PortUnit.SameFlags (u v : PortUnit) : Prop := v.hold = u.hold ∧ v.arstn = u.arstn

variable {s t : State}

theorem State.frame_of_kept (hk : t.kept = s.kept) (hp : ∀ q, (s.port q).SameFlags (t.port q)) : t.frame = s.frame :=
  Frame.ext (congrArg Kept.accounts hk) (congrArg Kept.threshold hk) (congrArg Kept.straps hk)
    (congrArg Kept.resetn hk) (funext fun q => (hp q).1) (funext fun q => (hp q).2) (congrArg Kept.mem hk)
    (congrArg Kept.pending hk)

theorem State.frame_of_ports (hk : t.kept = s.kept) (hp : t.ports = s.ports) : t.frame = s.frame :=
  State.frame_of_kept hk fun q => by
    rw [State.port_congr hp]
    exact ⟨rfl, rfl⟩

end Frame

section SharedOperations

variable (s : State)

theorem State.frame_mapPorts {f : Port → PortUnit → PortUnit}
    (hf : ∀ (q : Port) (u : PortUnit), u.SameFlags (f q u)) :
    (s.mapPorts f).frame = s.frame :=
  State.frame_of_kept rfl fun q => by
    rw [State.port_mapPorts]
    exact hf q _

theorem State.frame_updPort (p : Port) {f : PortUnit → PortUnit} (hf : ∀ u : PortUnit, u.SameFlags (f u)) :
    (s.updPort p f).frame = s.frame :=
  State.frame_of_kept rfl fun q => by
    rw [State.port_updPort]
    split
    · exact hf _
    · exact ⟨rfl, rfl⟩

@[simp] theorem State.frame_addAttention (p : Port) (k : Kind) : (s.addAttention p k).frame = s.frame :=
  s.frame_updPort p fun _ => ⟨rfl, rfl⟩

@[simp] theorem State.frame_addAttentionWhere (c : Port → Bool) (k : Kind) :
    (s.addAttentionWhere c k).frame = s.frame := s.frame_mapPorts fun _ _ => ⟨rfl, rfl⟩

@[simp] theorem State.frame_respond (p : Port) (c : BusCode) (d : Option Word) : (s.respond p c d).frame = s.frame :=
  s.frame_updPort p fun _ => ⟨rfl, rfl⟩

@[simp] theorem State.frame_finish (p : Port) (st : Status) (res : Words4) : (s.finish p st res).frame = s.frame :=
  (State.frame_addAttention _ p .done).trans (s.frame_updPort p fun _ => ⟨rfl, rfl⟩)

@[simp] theorem State.frame_recordFault (p : Port) (k : FaultKind) (a : Word) (b : Bool) (h : Option Handle) :
    (s.recordFault p k a b h).frame = s.frame := by
  unfold State.recordFault
  split
  · exact (State.frame_addAttention _ p .fault).trans (s.frame_updPort p fun _ => ⟨rfl, rfl⟩)
  · exact s.frame_updPort p fun _ => ⟨rfl, rfl⟩

@[simp] theorem State.frame_deny (p : Port) (k : FaultKind) (r : Request) (h : Option Handle) :
    (s.deny p k r h).frame = s.frame := (State.frame_respond _ p _ _).trans (s.frame_recordFault p k _ _ h)

@[simp] theorem State.frame_tellOwner (w : WSlot) : (s.tellOwner w).frame = s.frame := by
  unfold State.tellOwner
  split
  · exact s.frame_addAttention _ .grants
  · rfl

@[simp] theorem State.frame_endHoldWait (q : Port) : (s.endHoldWait q).frame = s.frame := by
  have hclear : (s.updPort q fun u => { u with holdWait := .absent }).frame = s.frame :=
    s.frame_updPort q fun _ => ⟨rfl, rfl⟩
  unfold State.endHoldWait
  split
  · rfl
  · dsimp only
    split
    · exact (State.frame_finish _ _ _ _).trans hclear
    · exact hclear

@[simp] theorem State.frame_restIf (o : DrainOwner) : (s.restIf o).frame = s.frame :=
  State.frame_of_ports (s.kept_restIf o) (s.restIf_ports o)

@[simp] theorem State.frame_endDrain (w : WSlot) : (s.endDrain w).frame = s.frame :=
  State.frame_of_kept (s.kept_endDrain w) fun q => by
    rw [State.port_endDrain]
    split <;> exact ⟨rfl, rfl⟩

@[simp] theorem State.frame_endClearDrain : s.endClearDrain.frame = s.frame := by
  unfold State.endClearDrain
  split
  · rfl
  · dsimp only
    split
    · rw [State.frame_finish, State.frame_restIf]
      rfl
    · rw [State.frame_restIf]
      rfl

@[simp] theorem State.frame_leaveClear (m : Member) : (s.leaveClear m).frame = s.frame := by
  unfold State.leaveClear
  split
  · rfl
  · split
    · dsimp only
      split
      · exact State.frame_endClearDrain _
      · rfl
    · rfl

@[simp] theorem State.frame_leaveWindow (w : WSlot) (m : Member) : (s.leaveWindow w m).frame = s.frame := by
  unfold State.leaveWindow
  split
  · dsimp only
    split
    · exact State.frame_endDrain _ w
    · rfl
  · rfl

@[simp] theorem State.frame_leave (w : WSlot) (m : Member) : (s.leave w m).frame = s.frame := by
  unfold State.leave
  split <;> simp

@[simp] theorem State.frame_leaveOwner (o : DrainOwner) : (s.leaveOwner o).frame = s.frame := by
  cases o with
  | window w => exact s.frame_leaveWindow w .rle
  | clear => exact s.frame_leaveClear .rle

@[simp] theorem State.frame_loseExtents (w : WSlot) (l : List Extent) : (s.loseExtents w l).frame = s.frame :=
  State.frame_of_kept (s.kept_loseExtents w l) fun q => by
    rw [State.port_loseExtents_eq]
    exact ⟨rfl, rfl⟩

@[simp] theorem State.frame_endDrainIfEmpty (w : WSlot) : (s.endDrainIfEmpty w).frame = s.frame := by
  unfold State.endDrainIfEmpty
  split <;> simp

theorem State.frame_mapWindows (f : WSlot → Window → Window) : (s.mapWindows f).frame = s.frame := rfl

@[simp] theorem State.frame_updWindow (w : WSlot) (f : Window → Window) : (s.updWindow w f).frame = s.frame := rfl

theorem State.frame_setRle (r : Rle) : State.frame { s with rle := r } = s.frame := rfl

@[simp] theorem State.frame_closeWindow (c : Port) (forced : Bool) (w : WSlot) :
    (s.closeWindow c forced w).frame = s.frame := by
  simp [State.closeWindow]

@[simp] theorem State.frame_shrinkBy (w : WSlot) (n : Nat) : (s.shrinkBy w n).frame = s.frame := by
  simp [State.shrinkBy]

@[simp] theorem State.frame_grantMemory : s.grantMemory.frame = s.frame :=
  State.frame_of_ports s.kept_grantMemory s.grantMemory_ports

@[simp] theorem State.frame_wpeTake : s.wpeTake.frame = s.frame :=
  State.frame_of_ports s.kept_wpeTake s.wpeTake_ports

@[simp] theorem State.frame_settle : s.settle.frame = s.frame :=
  State.frame_of_ports s.kept_settle s.settle_ports

@[simp] theorem State.frame_endRefresh : s.endRefresh.frame = s.frame := by
  rw [s.endRefresh_eq]
  rfl

/-- An entry of the Quarantine Set tells the supervisor (R30). -/
@[simp] theorem State.frame_enterQuarantine (e : Extent) (c : Cause) : (s.enterQuarantine e c).frame = s.frame :=
  State.frame_addAttention (s.updExtent e _) _ .quarantined

theorem State.frame_abortSlot (p : Port) : (s.abortSlot p).frame = s.frame := by
  have hslot : (s.updPort p fun u => { u with slot := Slot.cleared }).frame = s.frame :=
    s.frame_updPort p fun _ => ⟨rfl, rfl⟩
  unfold State.abortSlot
  dsimp only
  split
  · refine (State.frame_mapPorts _ fun _ u => ?_).trans hslot
    cases u.holdWait <;> exact ⟨rfl, rfl⟩
  · exact hslot

theorem State.frame_resetAccess (p : Port) : (s.resetAccess p).frame = s.frame := by
  unfold State.resetAccess
  split
  · rw [State.frame_endHoldWait, State.frame_leave]
    exact s.frame_updPort p fun _ => ⟨rfl, rfl⟩
  · exact s.frame_updPort p fun _ => ⟨rfl, rfl⟩
  · rfl
  · rfl

theorem State.frame_closes (c : Port) (l : List WSlot) :
    (l.foldl (fun t w => t.closeWindow c false w) s).frame = s.frame := by
  induction l generalizing s with
  | nil => rfl
  | cons w l ih => exact (ih _).trans (s.frame_closeWindow c false w)

theorem State.frame_closeOwned (p c : Port) : (s.closeOwned p c).frame = s.frame := s.frame_closes c (s.closeOrder p)

theorem State.frame_vacateAgent (p c : Port) : (s.vacateAgent p c).frame = s.frame :=
  s.frame_addAttentionWhere _ .grants

/-- A port reset leaves every hold flag and every pin (R165). -/
@[simp] theorem State.frame_resetPort (p c : Port) : (s.resetPort p c).frame = s.frame := by
  unfold State.resetPort
  dsimp only
  rw [State.frame_updPort, State.frame_vacateAgent, State.frame_closeOwned, State.frame_updPort,
    State.frame_resetAccess, State.frame_abortSlot]
  all_goals exact fun _ => ⟨rfl, rfl⟩

theorem State.frame_clearTables : s.clearTables.frame = s.frame := by
  have hports : (s.mapPorts fun q u => if q = s.supervisor then u else u.clear).frame = s.frame :=
    s.frame_mapPorts fun q u => by split <;> exact ⟨rfl, rfl⟩
  unfold State.clearTables
  dsimp only
  split
  · exact (State.frame_addAttention _ _ .moved).trans hports
  · exact hports

end SharedOperations

section Requests

variable (s : State) (p : Port) (r : Request)

theorem State.frame_admitAccess (a : AccessRec) : (s.admitAccess p a).frame = s.frame := by
  unfold State.admitAccess
  dsimp only
  split
  · exact (State.frame_grantMemory _).trans (State.frame_updPort _ p fun _ => ⟨rfl, rfl⟩)
  · exact State.frame_updPort _ p fun _ => ⟨rfl, rfl⟩
  · rfl
  · rfl

theorem State.frame_viewSteps : (s.viewSteps p r).frame = s.frame := by
  unfold State.viewSteps
  split
  · exact s.frame_deny p .miss r _
  · exact s.frame_deny p .revoked r _
  · split
    · exact s.frame_deny p .rights r _
    · exact s.frame_admitAccess p _

theorem State.frame_viewRequest : (s.viewRequest p r).frame = s.frame := by
  unfold State.viewRequest
  split
  · exact s.frame_deny p .align r _
  · split
    · exact s.frame_respond p .retry _
    · split
      · exact s.frame_respond p .retry _
      all_goals exact s.frame_viewSteps p r

/-- A write to a control word that the port serves changes its record, and not the two flags. -/
theorem State.frame_respond_updPort (c : BusCode) (d : Option Word) {f : PortUnit → PortUnit}
    (hf : ∀ u : PortUnit, u.SameFlags (f u)) : ((s.updPort p f).respond p c d).frame = s.frame :=
  (State.frame_respond _ p c d).trans (s.frame_updPort p hf)

theorem State.frame_controlStore (offset : Nat) (value : Word) : (s.controlStore p offset value).frame = s.frame := by
  have hretry : (s.retry p).frame = s.frame := s.frame_respond p .retry _
  unfold State.controlStore
  dsimp only
  split
  iterate 5
    · split
      · exact hretry
      · exact s.frame_respond_updPort p .done _ fun _ => ⟨rfl, rfl⟩
  · exact s.frame_respond_updPort p .done _ fun _ => ⟨rfl, rfl⟩
  · exact s.frame_respond_updPort p .done _ fun _ => ⟨rfl, rfl⟩
  · exact s.frame_respond_updPort p .done _ fun _ => ⟨rfl, rfl⟩
  · exact s.frame_respond p .done _

theorem State.frame_controlRequest : (s.controlRequest p r).frame = s.frame := by
  unfold State.controlRequest
  split
  · exact s.frame_deny p .aperture r _
  · split
    · exact s.frame_deny p .align r _
    · split
      · exact s.frame_respond p .done _
      · exact s.frame_controlStore p _ _

/-- A request at a port leaves the frame. -/
theorem State.frame_takeRequest : (s.takeRequest p r).frame = s.frame := by
  have hsampled : (s.updPort p fun u => { u with response := none }).frame = s.frame :=
    s.frame_updPort p fun _ => ⟨rfl, rfl⟩
  unfold State.takeRequest
  split
  · dsimp only
    split
    · exact (State.frame_controlRequest _ p r).trans hsampled
    · exact (State.frame_viewRequest _ p r).trans hsampled
  · rfl

end Requests

section Completions

variable (s : State)

theorem State.frame_countCorrection (e : Extent) : (s.countCorrection e).frame = s.frame := by
  unfold State.countCorrection
  dsimp only
  split
  · split <;> rfl
  · rfl

theorem State.frame_report (e : Extent) (o : Option WordRead) : (s.report e o).frame = s.frame := by
  unfold State.report
  split
  · exact s.frame_countCorrection e
  · split <;> rfl
  all_goals rfl

theorem State.frame_answerAccess (p : Port) (a : AccessRec) (o : Option WordRead) :
    (s.answerAccess p a o).frame = s.frame := by
  unfold State.answerAccess
  refine (State.frame_respond _ p _ _).trans ?_
  split
  · rfl
  · exact s.frame_recordFault p _ _ _ _

/-- The completion of an access changes the bank alone (R58). -/
theorem State.frame_completeAccess (p : Port) (a : AccessRec) (live : Bool) (m : Option Extent) (x : Bits39) :
    (s.completeAccess p a live m x).frame = { s.frame with mem := (s.performAccess a m x).1 } := by
  have hreport : (State.report (State.endUnit { s with mem := (s.performAccess a m x).1 }) a.ext
      (s.performAccess a m x).2).frame = { s.frame with mem := (s.performAccess a m x).1 } :=
    State.frame_report _ _ _
  unfold State.completeAccess
  rw [State.frame_settle, State.frame_endHoldWait, State.frame_leave, State.frame_setRle, State.frame_updPort]
  · cases live
    · exact hreport
    · exact (State.frame_answerAccess _ p a _).trans hreport
  · exact fun _ => ⟨rfl, rfl⟩

theorem State.frame_wipeEnd (e : Extent) (failed : Bool) : (s.wipeEnd e failed).frame = s.frame := by
  unfold State.wipeEnd
  cases failed
  · rfl
  · exact s.frame_enterQuarantine e .verify

theorem State.frame_afterVerify (e : Extent) (b : Nat) (failed : Bool) :
    (s.afterVerify e b failed).frame = s.frame := by
  unfold State.afterVerify
  split
  · rfl
  · exact s.frame_wipeEnd e failed

/-- A block copy changes the bank alone (R133, R141). -/
theorem State.frame_copyBlock (src tgt : Extent) (ptr : Nat) (x : Vector Bits39 16) :
    (s.copyBlock src tgt ptr x).frame = { s.frame with mem := (s.copyBlock src tgt ptr x).mem } := by
  unfold State.copyBlock
  dsimp only
  split <;> exact State.frame_mapPorts _ fun _ _ => ⟨rfl, rfl⟩

theorem State.frame_swapExtents (src tgt : Extent) (h : Handle) (i : Nat) :
    (s.swapExtents src tgt h i).frame = s.frame :=
  (State.frame_addAttention _ _ .moved).trans (State.frame_enterQuarantine _ src .relocated)

end Completions

end Sys2Proof.Machine
end
section
/-!
The frame along each command (O56): what a command's frame may become, the verdicts of the commands taken at the Window
Directory, and the other rows of the table.
-/

namespace Sys2Proof.Machine

section Framing

variable {c : Instr} {F G : Frame}

/-- The frame `G` after command `c` against the frame `F` before it (R158 to R160, R162). -/
def Frame.Becomes (F : Frame) (c : Instr) (G : Frame) : Prop :=
  (G.accounts = F.accounts ∨ ∃ p k, c = .setQuota p ∨ c = .setRank p ∨ c = .resetnRelease k) ∧
  (G.threshold = F.threshold ∨ ∃ p k, c = .setThreshold p ∨ c = .resetnRelease k) ∧
  (G.straps = F.straps ∨ ∃ k, c = .resetnRelease k) ∧
  (G.resetn = F.resetn ∨ c = .resetnAssert ∨ ∃ k, c = .resetnRelease k) ∧
  ((∀ q, G.hold q = F.hold q) ∨ ∃ p k, c = .hold p ∨ c = .resume p ∨ c = .resetnRelease k) ∧
  ((∀ q, G.arstn q = F.arstn q) ∨ ∃ p, c = .arstnAssert p ∨ c = .arstnRelease p) ∧
  (G.mem = F.mem ∨ (∃ p b, c = .accessCompletion p b) ∨ c = .wipeBlockComplete ∨
    (∃ x, c = .verifyBlockComplete x ∨ c = .blockCopyComplete x) ∨ c = .resetnAssert ∨
    ∃ k, c = .resetnRelease k) ∧
  G.pending = F.pending

/-- The completion of a unit, which reads or writes words of the bank. -/
def Completes (c : Instr) : Prop :=
  (∃ p b, c = .accessCompletion p b) ∨ c = .wipeBlockComplete ∨
    ∃ x, c = .verifyBlockComplete x ∨ c = .blockCopyComplete x

/-- Every command may leave the frame. -/
theorem Frame.Becomes.same (h : G = F) : F.Becomes c G := by
  subst h
  exact ⟨Or.inl rfl, Or.inl rfl, Or.inl rfl, Or.inl rfl, Or.inl fun _ => rfl, Or.inl fun _ => rfl, Or.inl rfl, rfl⟩

theorem Frame.Becomes.bank (hc : Completes c) {m : Memory} (h : G = { F with mem := m }) : F.Becomes c G := by
  subst h
  refine ⟨Or.inl rfl, Or.inl rfl, Or.inl rfl, Or.inl rfl, Or.inl fun _ => rfl, Or.inl fun _ => rfl, Or.inr ?_, rfl⟩
  exact hc.imp_right (Or.imp_right Or.inl)

theorem Frame.Becomes.accounts (hc : ∃ p, c = .setQuota p ∨ c = .setRank p) {a : Vector Account 6}
    (h : G = { F with accounts := a }) : F.Becomes c G := by
  subst h
  obtain ⟨p, hc⟩ := hc
  exact ⟨Or.inr ⟨p, F.straps, hc.imp_right Or.inl⟩, Or.inl rfl, Or.inl rfl, Or.inl rfl, Or.inl fun _ => rfl,
    Or.inl fun _ => rfl, Or.inl rfl, rfl⟩

theorem Frame.Becomes.threshold {p : Port} (hc : c = .setThreshold p) {n : Nat} (h : G = { F with threshold := n }) :
    F.Becomes c G := by
  subst h
  exact ⟨Or.inl rfl, Or.inr ⟨p, F.straps, Or.inl hc⟩, Or.inl rfl, Or.inl rfl, Or.inl fun _ => rfl,
    Or.inl fun _ => rfl, Or.inl rfl, rfl⟩

theorem Frame.Becomes.hold (hc : ∃ p, c = .hold p ∨ c = .resume p) {x : Port → Bool}
    (h : G = { F with hold := x }) : F.Becomes c G := by
  subst h
  obtain ⟨p, hc⟩ := hc
  exact ⟨Or.inl rfl, Or.inl rfl, Or.inl rfl, Or.inl rfl, Or.inr ⟨p, F.straps, hc.imp_right Or.inl⟩,
    Or.inl fun _ => rfl, Or.inl rfl, rfl⟩

theorem Frame.Becomes.arstn (hc : ∃ p, c = .arstnAssert p ∨ c = .arstnRelease p) {x : Port → Bool}
    (h : G = { F with arstn := x }) : F.Becomes c G := by
  subst h
  exact ⟨Or.inl rfl, Or.inl rfl, Or.inl rfl, Or.inl rfl, Or.inl fun _ => rfl, Or.inr hc, Or.inl rfl, rfl⟩

/-- A result is a next state with this property. -/
def Answers (r : Result) (P : State → Prop) : Prop := ∃ t, r = .next t ∧ P t

theorem answers_next {P : State → Prop} {t : State} (h : P t) : Answers (.next t) P := ⟨t, rfl, h⟩

/-- The command answers a next state, and frames it (logs 1 and 15). -/
def State.Framed (s : State) (c : Instr) (r : Result) : Prop := Answers r fun t => s.frame.Becomes c t.frame

theorem State.framed_same {s t : State} (h : t.frame = s.frame) : s.Framed c (.next t) := answers_next (.same h)

theorem State.framed_self (s : State) : s.Framed c (.next s) := State.framed_same rfl

end Framing

section Taken

variable {s : State} {p : Port}

theorem State.takeCommand_next (s : State) (p : Port) (isCode : BitVec 8 → Bool) (body : State → Verdict) :
    ∃ t, s.takeCommand p isCode body = .next t := by
  unfold State.takeCommand
  split
  · cases body (s.served p) <;> exact ⟨_, rfl⟩
  · exact ⟨_, rfl⟩

theorem State.frame_slotInProgress (s : State) (p : Port) : (s.slotInProgress p).frame = s.frame :=
  s.frame_updPort p fun _ => ⟨rfl, rfl⟩

/-- The take of a command does to the frame what its verdict does. -/
theorem State.framed_take {c : Instr} (s : State) (isCode : BitVec 8 → Bool) {body : State → Verdict}
    (hbody : ∀ u : State, (body u).All (fun v => u.frame.Becomes c v.frame) fun v => u.frame.Becomes c v.frame) :
    s.Framed c (s.takeCommand p isCode body) := by
  obtain ⟨t, ht⟩ := s.takeCommand_next p isCode body
  have hserved : s.frame.Becomes c (s.served p).frame := .same rfl
  refine ⟨t, ht, State.takeCommand_keeps (P := fun v => s.frame.Becomes c v.frame) (.same rfl) hserved
    (fun u st res hu => ?_) (fun u hu => ?_) (fun _ => hbody (s.served p)) ht⟩
  · rw [u.frame_finish]
    exact hu
  · rw [u.frame_slotInProgress p]
    exact hu

theorem State.frame_newThreshold (s : State) (n : Nat) :
    (s.newThreshold n).frame = { s.frame with threshold := n } := rfl

theorem State.frame_of_hold {t : State} (hk : t.kept = s.kept) (ha : ∀ q, (t.port q).arstn = (s.port q).arstn) :
    t.frame = { s.frame with hold := t.frame.hold } :=
  Frame.ext (congrArg Kept.accounts hk) (congrArg Kept.threshold hk) (congrArg Kept.straps hk)
    (congrArg Kept.resetn hk) rfl (funext ha) (congrArg Kept.mem hk) (congrArg Kept.pending hk)

/-- HOLD changes hold flags alone (R160). -/
theorem State.frame_setHold (q : Port) : (s.setHold q).frame = { s.frame with hold := (s.setHold q).frame.hold } := by
  refine State.frame_of_hold rfl fun r => ?_
  rw [State.setHold_eq, State.port_updPort]
  split <;> rfl

/-- RESUME changes hold flags alone (R162). -/
theorem State.frame_resumePort (q : Port) :
    (s.resumePort q).frame = { s.frame with hold := (s.resumePort q).frame.hold } := by
  have hcleared : ∀ r, ((s.updPort q fun u => { u with hold := false, holdWait := .absent }).port r).arstn =
      (s.port r).arstn := fun r => by
    rw [State.port_updPort]
    split <;> rfl
  refine State.frame_of_hold ?_ fun r => ?_
  · unfold State.resumePort
    dsimp only
    split <;> rfl
  · unfold State.resumePort
    dsimp only
    split
    · rw [State.port_addAttention]
      split <;> exact hcleared r
    · exact hcleared r

/-- What the verdict of every command taken at the Window Directory does to the frame. -/
theorem taken_becomes {c : Instr} {isCode : BitVec 8 → Bool} {body : State → Verdict}
    (hc : takenCommand c = some (p, isCode, body)) (u : State) :
    (body u).All (fun v => u.frame.Becomes c v.frame) fun v => u.frame.Becomes c v.frame := by
  cases c with
  | undefinedCommand p => cases hc; exact True.intro
  | openWindow p => cases hc; exact openVerdict_all fun _ _ _ _ _ _ _ _ _ _ _ => .same rfl
  | grow p => cases hc; exact growVerdict_all fun _ _ _ _ _ _ _ _ _ => .same rfl
  | shrink p => cases hc; exact shrinkVerdict_all fun w n _ _ _ => .same (by simp)
  | close p => cases hc; exact closeVerdict_all fun w _ => .same (by simp)
  | offer p =>
    cases hc
    exact offerVerdict_all (.same rfl) fun w k a r l _ _ _ _ _ => .same (State.frame_addAttention _ a .offers)
  | withdraw p => cases hc; exact withdrawVerdict_all fun w k a _ => .same (State.frame_addAttention _ a .offers)
  | accept p => cases hc; exact acceptVerdict_all fun w k r l b _ _ _ _ _ => .same (State.frame_tellOwner _ w)
  | decline p => cases hc; exact declineVerdict_all fun w k _ => .same (State.frame_tellOwner _ w)
  | revoke p =>
    cases hc
    exact revokeVerdict_all fun w k a _ _ _ => .same
      ((State.frame_addAttentionWhere _ _ _).trans (State.frame_addAttentionWhere _ _ _))
  | release p =>
    cases hc
    exact releaseVerdict_all fun w k _ _ => ⟨.same rfl, .same (State.frame_tellOwner _ w)⟩
  | readWindow p => cases hc; exact readWindowVerdict_all (.same rfl)
  | readGrant p => cases hc; exact readGrantVerdict_all (.same rfl)
  | readView p => cases hc; exact readViewVerdict_all (.same rfl)
  | readOffer p => cases hc; exact readOfferVerdict_all (.same rfl)
  | readAccount p => cases hc; exact .same rfl
  | setQuota p =>
    cases hc
    exact supervisorOnly_all fun _ => setQuotaVerdict_all fun _ _ _ _ _ => .accounts ⟨p, Or.inl rfl⟩ rfl
  | setRank p =>
    cases hc
    exact supervisorOnly_all fun _ => setRankVerdict_all fun _ _ => .accounts ⟨p, Or.inr rfl⟩ rfl
  | setThreshold p =>
    cases hc
    exact supervisorOnly_all fun _ => setThresholdVerdict_all fun n _ _ => .threshold rfl
      ((State.frame_settle _).trans (u.frame_newThreshold n))
  | hold p =>
    cases hc
    have hwaits : ∀ q, ((u.setHold q).updPort q fun x => { x with holdWait := .present true }).frame =
        (u.setHold q).frame := fun q => State.frame_updPort _ q fun _ => ⟨rfl, rfl⟩
    exact supervisorOnly_all fun _ => holdVerdict_all (.same rfl)
      (fun q => .hold ⟨p, Or.inl rfl⟩ (u.frame_setHold q)) fun q =>
        .hold ⟨p, Or.inl rfl⟩ ((hwaits q).trans (u.frame_setHold q))
  | resume p =>
    cases hc
    exact supervisorOnly_all fun _ => resumeVerdict_all fun q => .hold ⟨p, Or.inr rfl⟩ (u.frame_resumePort q)
  | resetPort p => cases hc; exact supervisorOnly_all fun _ => resetPortVerdict_all fun q => .same (by simp)
  | forceClose p => cases hc; exact supervisorOnly_all fun _ => forceCloseVerdict_all fun w _ => .same (by simp)
  | migrate p =>
    cases hc
    exact supervisorOnly_all fun _ => migrateVerdict_all fun e _ _ => .same (State.frame_settle _)
  | quarantine p =>
    cases hc
    exact supervisorOnly_all fun _ => quarantineVerdict_all fun e _ => .same (u.frame_enterQuarantine e .supervisor)
  | restore p =>
    cases hc
    exact supervisorOnly_all fun _ => restoreVerdict_all fun e _ => .same (State.frame_settle _)
  | readExtent p => cases hc; exact supervisorOnly_all fun _ => readExtentVerdict_all (.same rfl)
  | readPool p => cases hc; exact supervisorOnly_all fun _ => .same rfl
  | clear p =>
    cases hc
    have hclear : ∀ r, State.frame { u.clearTables with clearRec := r } = u.frame := fun _ => u.frame_clearTables
    exact supervisorOnly_all fun _ => clearVerdict_all (.same (by simp [hclear])) fun _ => .same (by simp [hclear])
  | _ => cases hc

end Taken

section Rows

variable {s : State} {p : Port}

/-- A change of a pin's level is the only one of its port's record (R163). -/
theorem State.frame_withArstn (s : State) (p : Port) (level : Bool) :
    (s.withArstn p level).frame = { s.frame with arstn := (s.withArstn p level).frame.arstn } := by
  refine Frame.ext rfl rfl rfl rfl (funext fun q => ?_) rfl rfl rfl
  have hport : (s.withArstn p level).port q = if q = p then { s.port q with arstn := level } else s.port q :=
    s.port_updPort p q _
  dsimp only [State.frame]
  rw [hport]
  split <;> rfl

theorem execArstnAssert_framed : s.Framed (.arstnAssert p) (execArstnAssert p s) := by
  have hpin := s.frame_withArstn p true
  unfold execArstnAssert
  dsimp only
  split
  · exact s.framed_self
  · split
    · exact answers_next (.arstn ⟨p, Or.inl rfl⟩ hpin)
    · refine answers_next (.arstn ⟨p, Or.inl rfl⟩ (.trans ?_ hpin))
      rw [State.frame_settle, State.frame_resetPort]
      rfl

theorem execArstnRelease_framed : s.Framed (.arstnRelease p) (execArstnRelease p s) :=
  answers_next (.arstn ⟨p, Or.inr rfl⟩ (s.frame_withArstn p false))

/-- A release keeps the pins and the queue, and gives the rest its power-on value (R119, R163). -/
theorem execResetnRelease_framed (k : Straps) : s.Framed (.resetnRelease k) (execResetnRelease k s) := by
  refine answers_next ⟨Or.inr ⟨0, k, Or.inr (Or.inr rfl)⟩, Or.inr ⟨0, k, Or.inr rfl⟩, Or.inr ⟨k, rfl⟩,
    Or.inr (Or.inr ⟨k, rfl⟩), Or.inr ⟨0, k, Or.inr (Or.inr rfl)⟩, Or.inl fun q => ?_,
    Or.inr (Or.inr (Or.inr (Or.inr (Or.inr ⟨k, rfl⟩)))), rfl⟩
  dsimp only [State.frame]
  rw [State.port_powerOn]
  exact PortSet.has_of _ q

theorem execResetnAssert_framed : s.Framed .resetnAssert (execResetnAssert s) := by
  unfold execResetnAssert
  split
  · exact s.framed_self
  · have hports : (s.mapPorts fun _ u => u.abandonRequest).frame = s.frame :=
      s.frame_mapPorts fun _ _ => ⟨rfl, rfl⟩
    have hhold := congrFun (congrArg Frame.hold hports)
    have harstn := congrFun (congrArg Frame.arstn hports)
    exact answers_next ⟨Or.inl rfl, Or.inl rfl, Or.inl rfl, Or.inr (Or.inl rfl), Or.inl hhold, Or.inl harstn,
      Or.inr (Or.inr (Or.inr (Or.inr (Or.inl rfl)))), rfl⟩

theorem execAccessCompletion_framed (x : Bits39) : s.Framed (.accessCompletion p x) (execAccessCompletion p x s) := by
  have hbank : ∀ a live m, s.Framed (.accessCompletion p x) (.next (s.completeAccess p a live m x)) :=
    fun a live m => answers_next (.bank (Or.inl ⟨p, x, rfl⟩) (s.frame_completeAccess p a live m x))
  unfold execAccessCompletion
  split
  · split
    · exact hbank _ _ _
    · exact s.framed_self
  · split
    · exact hbank _ _ _
    · exact s.framed_self
  · exact s.framed_self

/-- A row that is due or changes nothing, and leaves the frame where it is due. -/
theorem State.framed_ite {c : Instr} {b : Prop} [Decidable b] {t : State} (h : t.frame = s.frame) :
    s.Framed c (if b then .next t else .next s) := by
  split
  · exact State.framed_same h
  · exact s.framed_self

theorem State.framed_ite_not {c : Instr} {b : Prop} [Decidable b] {t : State} (h : t.frame = s.frame) :
    s.Framed c (if b then .next s else .next t) := by
  split
  · exact s.framed_self
  · exact State.framed_same h

theorem execOfferExpiry_framed (w : WSlot) (k : GSlot) : s.Framed (.offerExpiry w k) (execOfferExpiry w k s) := by
  unfold execOfferExpiry
  split
  · refine State.framed_same ?_
    split
    · rfl
    · exact (State.frame_tellOwner _ w).trans (State.frame_addAttention _ _ .offers)
  all_goals exact s.framed_self

theorem execWipeBlockComplete_framed : s.Framed .wipeBlockComplete (execWipeBlockComplete s) := by
  unfold execWipeBlockComplete
  split
  · exact answers_next (.bank (Or.inr (Or.inl rfl)) (State.frame_grantMemory _))
  · exact s.framed_self

theorem execVerifyBlockComplete_framed (x : Vector Bits39 16) :
    s.Framed (.verifyBlockComplete x) (execVerifyBlockComplete x s) := by
  unfold execVerifyBlockComplete
  split
  · exact answers_next (.bank (Or.inr (Or.inr ⟨x, Or.inl rfl⟩))
      ((State.frame_settle _).trans (State.frame_afterVerify _ _ _ _)))
  · exact s.framed_self

theorem execRelocationStart_framed : s.Framed .relocationStart (execRelocationStart s) := by
  unfold execRelocationStart
  split
  · exact State.framed_same (State.frame_settle _)
  · exact State.framed_same (State.frame_settle _)
  · exact s.framed_self

theorem execBlockCopyComplete_framed (x : Vector Bits39 16) :
    s.Framed (.blockCopyComplete x) (execBlockCopyComplete x s) := by
  have hbank : ∀ {t : State} {src tgt : Extent} {ptr : Nat}, t.frame = (s.copyBlock src tgt ptr x).frame →
      s.Framed (.blockCopyComplete x) (.next t) := fun h =>
    answers_next (.bank (Or.inr (Or.inr ⟨x, Or.inr rfl⟩)) (h.trans (s.frame_copyBlock _ _ _ x)))
  unfold execBlockCopyComplete
  split
  · exact hbank (State.frame_settle _)
  · exact hbank ((State.frame_settle _).trans (State.frame_leaveOwner _ _))
  · exact s.framed_self

theorem execSwap_framed : s.Framed .swap (execSwap s) := by
  unfold execSwap
  split
  · split
    · refine State.framed_same ?_
      rw [State.frame_setRle, State.frame_swapExtents]
    all_goals exact s.framed_self
  · exact s.framed_self

/-- A port's take of a swap or of an abandonment leaves its flags (R147, R149). -/
theorem State.frame_released (s : State) (p : Port) (f : AccessRec → AccessRec) (r : Rle) (ah : PortSet) :
    (State.grantMemory { s.updPort p (fun u => { u with access := u.access.releaseCutover f }) with
      rle := r, abandonHanded := ah }).frame = s.frame :=
  (State.frame_grantMemory _).trans (s.frame_updPort p fun _ => ⟨rfl, rfl⟩)

theorem execPortSwapTake_framed : s.Framed (.portSwapTake p) (execPortSwapTake p s) := by
  unfold execPortSwapTake
  split
  · exact State.framed_ite (s.frame_released p _ _ _)
  · exact s.framed_self

theorem execSwapAcknowledge_framed : s.Framed (.swapAcknowledge p) (execSwapAcknowledge p s) := by
  unfold execSwapAcknowledge
  split
  · split
    · split
      · exact State.framed_same (State.frame_settle _)
      · exact State.framed_same rfl
    · exact s.framed_self
  · exact s.framed_self

end Rows

section Commands

variable {s : State}

/-- Every command answers a next state and changes of the frame only what its rule lets it change. -/
theorem exec_framed (c : Instr) (s : State) : s.Framed c (exec c s) := by
  rcases hc : takenCommand c with _ | ⟨p, isCode, body⟩
  case some =>
    rw [exec_of_taken hc s]
    exact s.framed_take isCode (taken_becomes hc)
  cases c with
  | resetnRelease k => exact execResetnRelease_framed k
  | resetnAssert => exact execResetnAssert_framed
  | arstnAssert p => exact execArstnAssert_framed
  | arstnRelease p => exact execArstnRelease_framed
  | viewSpaceRequest p r | controlImageRefused p r | controlWordWrite p r =>
    exact State.framed_same (s.frame_takeRequest p r)
  | attentionWordWrite p v | noticeWordWrite p v | faultRecordClear p v | commandIssue p v =>
    exact State.framed_same (s.frame_takeRequest p _)
  | accessCompletion p x => exact execAccessCompletion_framed x
  | drainEnd w => exact State.framed_ite ((State.frame_settle _).trans (s.frame_endDrain w))
  | clearDrainEnd => exact State.framed_ite ((State.frame_settle _).trans s.frame_endClearDrain)
  | holdFinish q => exact State.framed_ite (s.frame_endHoldWait q)
  | tick =>
    refine State.framed_ite_not ?_
    rw [State.frame_mapWindows, State.frame_addAttentionWhere, State.frame_addAttentionWhere]
  | offerExpiry w k => exact execOfferExpiry_framed w k
  | initializationComplete => exact State.framed_ite_not (State.frame_settle _)
  | refresh => exact State.framed_ite_not rfl
  | memoryGrant => exact State.framed_ite_not ((State.frame_grantMemory _).trans s.frame_endRefresh)
  | wpeTake => exact State.framed_ite_not ((State.frame_grantMemory _).trans s.frame_wpeTake)
  | wipeBlockComplete => exact execWipeBlockComplete_framed
  | verifyBlockComplete x => exact execVerifyBlockComplete_framed x
  | relocationStart => exact execRelocationStart_framed
  | blockCopyComplete x => exact execBlockCopyComplete_framed x
  | swap => exact execSwap_framed
  | portSwapTake p => exact execPortSwapTake_framed
  | swapAcknowledge p => exact execSwapAcknowledge_framed
  | cutoverAnswer p => exact State.framed_ite_not rfl
  | abandonmentTake p => exact State.framed_ite (s.frame_released p id s.rle _)
  | _ => cases hc

/-- Settles O56: the frame of every command, row by row of the table. -/
theorem everyCommandAnswersAndFrames : Obligations.EveryCommandAnswersAndFrames := exec_framed

end Commands

end Sys2Proof.Machine
end
section
/-!
A port's slot and access at its reset in the rules' own terms (R60, R64, R70, R161, R164, R173).
-/

namespace Sys2Proof.Machine

section SlotAndAccess

variable {s : State}

/-- The abort of a port's slot (R64, R70). -/
theorem State.abortSlot_eq_slotAborted (s : State) (q : Port) : s.abortSlot q = s.slotAborted q := by
  have hports : (s.abortSlot q).ports = (s.slotAborted q).ports := Tab.ext fun r => by
    have hport : Tab.get s.ports r = s.port r := rfl
    unfold State.abortSlot State.slotAborted
    dsimp only
    split
    · next hq =>
      refine (State.port_mapPorts _ _ r).trans ?_
      rw [State.port_updPort, Tab.get_mapAll, hport]
      obtain ⟨_, _, _, _, _, _, _, wait, _⟩ := s.port r
      by_cases hr : r = q
      · cases wait <;> simp [if_pos hr, ← hq]
      · cases wait <;> simp [if_neg hr, ← hq]
    · next hq =>
      refine (s.port_updPort q r _).trans ?_
      rw [Tab.get_mapAll, hport]
      by_cases hr : r = q <;> simp [hr, hq]
  unfold State.abortSlot State.slotAborted at hports ⊢
  dsimp only at hports ⊢
  split at hports
  · next hq => rw [if_pos hq, if_pos hq, ← hports]; rfl
  · next hq => rw [if_neg hq, if_neg hq, ← hports]; rfl

/-- A window's record at the end of its drain does not depend on the drain set. -/
theorem Window.ended_setDrain (x : Window) (d : DrainSet) : Window.ended { x with drain := d } = x.ended := by
  unfold Window.ended
  rfl

/-- The end of a window's drain does not depend on its drain set. -/
theorem State.drainEnded_updDrain (s : State) (w : WSlot) (d : Window → DrainSet) :
    (s.updWindow w fun x => { x with drain := d x }).drainEnded w = s.drainEnded w := by
  have hend : Tab.upd (Tab.upd s.windows w fun x => { x with drain := d x }) w Window.ended =
      Tab.upd s.windows w Window.ended := by
    rw [Tab.upd_upd]
    exact Tab.upd_congr _ _ (Window.ended_setDrain _ _)
  have hwin := s.window_updWindow_self w fun x => { x with drain := d x }
  unfold State.drainEnded
  rw [hwin]
  simp only [State.updWindow, hend]
  rfl

/-- A port leaves a drain (R22, R93, R171, R173). -/
theorem State.leave_port_eq_portLeft (s : State) (w : WSlot) (q : Port) : s.leave w (.port q) = s.portLeft w q := by
  unfold State.portLeft
  cases hu : s.underClear w with
  | true =>
    obtain ⟨c, hc, hw⟩ := (s.underClear_iff w).1 hu
    rw [State.leave_clear s _ hc hw]
    simp only [hc, Option.filter, hw, decide_true, if_true]
    by_cases hm : c.drain.has (.port q) = true
    · rw [if_neg (by simpa [DrainSet.has] using hm)]
      by_cases he : c.drain.remove (.port q) = DrainSet.empty
      · rw [State.leaveClear_ends s hc hm he, if_pos he, State.endClearDrain_eq_clearEnded _ rfl]
        rfl
      · rw [State.leaveClear_stays s hc hm he, if_neg he]
    · rw [State.leaveClear_absent s hc (by simpa using hm), if_pos (by simpa [DrainSet.has] using hm)]
  | false =>
    have hnone : (s.clearRec.filter fun c => decide (w ∈ c.closed)) = none := by
      rw [Option.filter_eq_none_iff]
      intro c hc hw
      rw [(s.underClear_iff w).2 ⟨c, hc, of_decide_eq_true hw⟩] at hu
      cases hu
    rw [State.leave_window s _ hu, hnone]
    by_cases hm : (s.window w).drain.has (.port q) = true
    · dsimp only
      rw [if_neg (by simpa [DrainSet.has] using hm)]
      by_cases he : (s.window w).drain.remove (.port q) = DrainSet.empty
      · rw [State.leaveWindow_ends s hm he, if_pos he, State.endDrain_eq_drainEnded, State.drainEnded_updDrain]
      · rw [State.leaveWindow_stays s hm he, if_neg he]
        exact congrArg (fun v => { s with windows := v }) (Tab.upd_congr _ _ rfl)
    · rw [State.leaveWindow_absent s (by simpa using hm)]
      exact (if_pos (by simpa [DrainSet.has] using hm)).symm

/-- A port's access at its reset (R60, R164). -/
theorem State.resetAccess_eq_accessReset (s : State) (q : Port) : s.resetAccess q = s.accessReset q := by
  unfold State.resetAccess State.accessReset
  cases (s.port q).access with
  | stalled c a =>
    dsimp only
    rw [State.leave_port_eq_portLeft, State.endHoldWait_eq_holdWaitEnded]
    rfl
  | idle | issued | orphaned => rfl

end SlotAndAccess

end Sys2Proof.Machine
end
section
/-!
Two windows whose extents stand apart (R2, R24, R138): the close of one leaves what the close of the other will do, in
every part whose windows and extents agree.
-/

namespace Sys2Proof.Machine

section Leaving

variable {s : State} {w x : WSlot} {e : Extent}

/-- The drain set of the window in slot `w` after its close (R91). -/
abbrev State.drainClosed (s : State) (w : WSlot) : DrainSet := s.drainAfter w (s.window w).extents

/-- The retiring list of the window in slot `w` at its close (R89, R95). -/
abbrev State.leaving (s : State) (w : WSlot) : List Extent := s.retiringAfter w (s.window w).extents

/-- The engine after the close of the window in slot `w` (R149). -/
abbrev State.engineClosed (s : State) (w : WSlot) : Rle := s.engineAfter w (s.window w).extents

/-- The target that leaves at the close of the window in slot `w` (R87, R149). -/
abbrev State.targetClosed (s : State) (w : WSlot) : List Extent := s.targetLeaving (s.window w).extents

/-- An extent of a window stands in it by the window's present handle. -/
theorem State.place_of_mem_extents (h : s.pool.Coherent) (he : e ∈ (s.window w).extents) :
    ∃ i, (s.entry e).st.place = some (s.handleOf w, i) := by
  have hheld : s.pool.held (s.handleOf w) = (s.window w).extents := s.heldBy_handleOf w
  exact h.place_of_mem (hheld.symm ▸ he)

/-- An extent is in one window (R24). -/
theorem State.window_of_mem_extents (h : s.pool.Coherent) (hw : e ∈ (s.window w).extents)
    (hx : e ∈ (s.window x).extents) : w = x := by
  obtain ⟨i, hi⟩ := s.place_of_mem_extents h hw
  obtain ⟨j, hj⟩ := s.place_of_mem_extents h hx
  rw [hi, Option.some.injEq, Prod.mk.injEq] at hj
  exact congrArg Handle.slot hj.1

theorem State.mem_targetLeaving {l : List Extent} :
    e ∈ s.targetLeaving l ↔ ∃ src, s.rle.live = some (src, e) ∧ src ∈ l := by
  unfold State.targetLeaving
  cases s.rle.live with
  | none => simp
  | some p =>
    obtain ⟨src, tgt⟩ := p
    by_cases hs : src ∈ l <;> simp [hs, eq_comm]

/-- What leaves at a close is RETIRING already, BOUND or MOVING in the window, or the TARGET of one that is (R89). -/
theorem State.leaving_cases (h : s.pool.Coherent) (he : e ∈ s.leaving w) :
    (s.entry e).st = .retiring ∧ e ∈ (s.window w).retiring ∨
      (∃ i, (s.entry e).st.place = some (s.handleOf w, i)) ∨
      (s.entry e).st = .target ∧ ∃ src ∈ (s.window w).extents, s.rle.live = some (src, e) := by
  rcases (s.mem_retiringAfter w _).1 he with hr | hl | ht
  · exact Or.inl ⟨(h.waits e).1 ⟨some w, hr⟩, hr⟩
  · exact Or.inr (Or.inl (s.place_of_mem_extents h hl))
  · obtain ⟨src, hlive, hsrc⟩ := State.mem_targetLeaving.1 ht
    exact Or.inr (Or.inr ⟨(h.target e).2 ⟨src, hlive⟩, src, hsrc, hlive⟩)

/-- What leaves at the close of one window does not leave at that of another. -/
theorem State.slot_of_mem_leaving (h : s.pool.Coherent) (hw : e ∈ s.leaving w) (hx : e ∈ s.leaving x) : w = x := by
  rcases State.leaving_cases h hw with ⟨hst, hr⟩ | ⟨i, hp⟩ | ⟨hst, src, hsrc, hlive⟩
  · rcases State.leaving_cases h hx with ⟨-, hr'⟩ | ⟨j, hp'⟩ | ⟨hst', -⟩
    · exact Option.some.inj (h.waitsOnce (some w) (some x) e hr hr')
    · rw [hst] at hp'
      cases hp'
    · rw [hst] at hst'
      cases hst'
  · rcases State.leaving_cases h hx with ⟨hst', -⟩ | ⟨j, hp'⟩ | ⟨hst', -⟩
    · rw [hst'] at hp
      cases hp
    · rw [hp, Option.some.injEq, Prod.mk.injEq] at hp'
      exact congrArg Handle.slot hp'.1
    · rw [hst'] at hp
      cases hp
  · rcases State.leaving_cases h hx with ⟨hst', -⟩ | ⟨j, hp'⟩ | ⟨-, src', hsrc', hlive'⟩
    · rw [hst] at hst'
      cases hst'
    · rw [hst] at hp'
      cases hp'
    · rw [hlive, Option.some.injEq, Prod.mk.injEq] at hlive'
      exact State.window_of_mem_extents h hsrc (hlive'.1 ▸ hsrc')

end Leaving

section Engine

variable {s t : State} {w x : WSlot} {l : List Extent}

/-- The engine is at no work that concerns the window in slot `w` and these extents of it. -/
structure State.Aloof (s : State) (w : WSlot) (l : List Extent) : Prop where
  target : s.targetLeaving l = []
  joins : s.engineJoins l = false
  was : ∀ e, s.wasTarget w e = false

/-- The engine is left alone where it is at no such work. -/
theorem State.Aloof.engineAfter (h : s.Aloof w l) : s.engineAfter w l = s.rle := by
  have hrest : s.rle.restedFrom (.window w) = s.rle := by
    have hwas := h.was
    unfold State.wasTarget at hwas
    cases hr : s.rle with
    | abandoning src tgt ptr b o =>
      rw [hr] at hwas
      cases o with
      | clear => rfl
      | window v =>
        have hne : v ≠ w := by simpa using hwas tgt
        exact if_neg fun ho => hne (DrainOwner.window.inj ho)
    | idle | waiting | copying | cutover => rfl
  rw [State.engineAfter_eq, State.engineLeft, if_pos h.target, hrest, ite_self]

/-- A relocation in progress of an extent outside these leaves the engine aloof. -/
theorem State.aloof_of_live {src tgt : Extent} (hr : s.rle.live = some (src, tgt)) (hsrc : src ∉ l) :
    s.Aloof w l := by
  refine ⟨?_, ?_, fun e => ?_⟩
  · rw [State.targetLeaving, hr]
    exact if_neg hsrc
  · unfold State.engineJoins
    cases hc : s.rle with
    | copying a b c =>
      rw [hc] at hr
      cases hr
      exact decide_eq_false hsrc
    | idle | waiting | cutover | abandoning => rfl
  · unfold State.wasTarget
    cases hc : s.rle with
    | abandoning => rw [hc] at hr; cases hr
    | idle | waiting | copying | cutover => rfl

theorem State.aloof_of_abandoning {src tgt : Extent} {ptr : Nat} {b : Bool}
    (hr : s.rle = .abandoning src tgt ptr b (.window w)) (hx : x ≠ w) : s.Aloof x l := by
  refine ⟨?_, ?_, fun e => ?_⟩
  · rw [State.targetLeaving, hr]
    rfl
  · rw [State.engineJoins, hr]
  · rw [State.wasTarget, hr]
    exact decide_eq_false fun h => hx h.1.symm

theorem State.aloof_of_idle (hr : s.rle = .idle) : s.Aloof x l := by
  refine ⟨?_, ?_, fun e => ?_⟩
  · rw [State.targetLeaving, hr]
    rfl
  · rw [State.engineJoins, hr]
  · rw [State.wasTarget, hr]

/-- The engine once its relocation is abandoned under the drain of a window, whether or not that drain is over. -/
theorem State.aloof_of_ended {src tgt : Extent} {ptr : Nat} {b : Bool} {p : Prop} [Decidable p]
    (hr : s.rle = if p then (Rle.abandoning src tgt ptr b (.window w)).restedFrom (.window w) else
      .abandoning src tgt ptr b (.window w)) (hx : x ≠ w) : s.Aloof x l := by
  split at hr
  · exact State.aloof_of_idle (hr.trans (if_pos rfl))
  · exact State.aloof_of_abandoning hr hx

/-- The close of a window leaves the engine alone, or finds it at work on that window and on no other. -/
theorem State.aloof_or_same (ht : t.rle = s.engineAfter w l) (hx : x ≠ w) {k : List Extent}
    (hl : ∀ e ∈ l, e ∉ k) : t.rle = s.rle ∨ s.Aloof x k ∧ t.Aloof x k := by
  rw [State.engineAfter_eq, State.engineLeft] at ht
  by_cases htl : s.targetLeaving l = []
  · rw [if_pos htl] at ht
    cases hr : s.rle with
    | abandoning src tgt ptr b o =>
      rw [hr] at ht
      by_cases ho : o = .window w
      · subst ho
        exact Or.inr ⟨State.aloof_of_abandoning hr hx, State.aloof_of_ended ht hx⟩
      · rw [Rle.restedFrom, if_neg ho, ite_self] at ht
        exact Or.inl ht
    | idle | waiting | copying | cutover =>
      rw [hr, Rle.restedFrom, ite_self] at ht
      exact Or.inl ht
  · rw [if_neg htl] at ht
    obtain ⟨tgt, htgt⟩ := List.exists_mem_of_ne_nil _ htl
    obtain ⟨src, hlive, hsrc⟩ := State.mem_targetLeaving.1 htgt
    refine Or.inr ⟨State.aloof_of_live hlive (hl src hsrc), ?_⟩
    cases hr : s.rle with
    | copying a b c =>
      rw [hr] at ht
      exact State.aloof_of_ended ht hx
    | cutover a b c d e f g =>
      rw [hr] at ht
      exact State.aloof_of_ended ht hx
    | idle | waiting | abandoning =>
      rw [hr] at hlive
      cases hlive

end Engine

end Sys2Proof.Machine
end
section
/-!
The closes of several windows of one owner, one after the other (R89 to R91, R94, R149, R165): in a part whose windows
and extents agree, each does what it would have done alone.
-/

namespace Sys2Proof.Machine

section Closes

/-- What the close of the window in slot `w` of owner `q`, caused by port `cause`, tells the ports (R76, R90, R94,
R149). -/
def State.CloseTells (s : State) (q cause : Port) (w : WSlot) (r : Port) (k : Kind) : Prop :=
  (r = q ∧ k = .drained ∧ s.drainClosed w = DrainSet.empty) ∨
  (r = s.supervisor ∧ k = .moved ∧ s.targetClosed w ≠ []) ∨
  (r ≠ cause ∧ k = .views ∧ ∃ j x b, (s.window w).grant j = .active r x b ∧ j ≠ 0) ∨
  (r ≠ cause ∧ k = .offers ∧ ∃ j x n, (s.window w).grant j = .offered r x n)

/-- The closes of the windows in these slots, in this order, each as it would be alone. -/
structure ClosesDone (s v : State) (q cause : Port) (l : List WSlot) : Prop where
  frame : v = { s with
    windows := v.windows, extents := v.extents, wipeList := v.wipeList, relocList := v.relocList, rle := v.rle,
    abandonHanded := v.abandonHanded, ports := v.ports, freeIdx := v.freeIdx }
  closed : ∀ w ∈ l, v.window w = s.closedRecord false w
  others : ∀ w, w ∉ l → v.window w = s.window w
  left : ∀ w ∈ l, ∀ e ∈ s.leaving w, v.entry e =
    { s.entry e with st := if s.drainClosed w = DrainSet.empty then .dirty else .retiring }
  stayed : ∀ e, (∀ w ∈ l, e ∉ s.leaving w) → v.entry e = s.entry e
  reloc : v.relocList = s.relocList.filter fun e => decide (∀ w ∈ l, e ∉ (s.window w).extents)
  wipe : v.wipeList = s.wipeList ++ (l.filter fun w => decide (s.drainClosed w = DrainSet.empty)).flatMap s.leaving
  engine : ∀ w ∈ l, s.engineClosed w ≠ s.rle → v.rle = s.engineClosed w
  alone : (∀ w ∈ l, s.engineClosed w = s.rle) → v.rle = s.rle
  handed : v.abandonHanded = if ∃ w ∈ l, s.targetClosed w ≠ [] then PortSet.all else s.abandonHanded
  ports : ∀ r : Port, v.port r = { s.port r with attention := (v.port r).attention }
  told : Adds s v fun r k => ∃ w ∈ l, s.CloseTells q cause w r k

theorem ClosesDone.refl (s : State) (q cause : Port) : ClosesDone s s q cause [] where
  frame := rfl
  closed := nofun
  others := fun _ _ => rfl
  left := nofun
  stayed := fun _ _ => rfl
  reloc := by simp
  wipe := by simp
  engine := nofun
  alone := fun _ => rfl
  handed := by simp
  ports := fun _ => rfl
  told := fun r k => by simp

variable {s t v : State} {q cause : Port} {w x : WSlot} {l : List WSlot}

/-- Each retiring list of a coherent pool waits. -/
theorem State.waiting_of_coherent (h : s.pool.Coherent) (w : WSlot) : s.Waiting w :=
  fun e he => (h.waits e).1 ⟨some w, he⟩

/-- One close. -/
theorem State.closesDone_closeWindow (h : s.pool.Coherent) (ho : (s.window w).owner = some q) :
    ClosesDone s (s.closeWindow cause false w) q cause [w] := by
  obtain ⟨hframe, hothers, hports⟩ := State.leavesOthers_closeWindow (cause := cause) (forced := false) ho
  obtain ⟨hentry, hreloc, hwipe, hrle, hhand⟩ :=
    State.extentsLeft_closeWindow (cause := cause) (forced := false) ho (State.waiting_of_coherent h w)
  have htold := State.adds_closeWindow (cause := cause) (forced := false) ho
  refine ⟨by rw [hframe], ?_, fun x hx => hothers x (by simpa using hx), ?_, fun e he => ?_, ?_, ?_, ?_, fun ha => ?_,
    ?_, hports, fun r k => (htold r k).trans ?_⟩
  · simpa using State.window_closeWindow_self
  · simp only [List.mem_singleton, forall_eq]
    exact fun e he => (hentry e).trans (if_pos he)
  · exact (hentry e).trans (if_neg (he w List.mem_cons_self))
  · simpa using hreloc
  · rw [hwipe]
    by_cases hd : s.drainClosed w = DrainSet.empty <;> simp [hd]
  · simpa using fun _ => hrle
  · exact hrle.trans (ha w List.mem_cons_self)
  · rw [hhand]
    by_cases htl : s.targetClosed w = [] <;> simp [htl]
  · simp [State.CloseTells]

/-- What the close of the window in slot `x` will do is what it was. -/
structure State.Untouched (s t : State) (x : WSlot) : Prop where
  window : t.window x = s.window x
  drain : t.drainClosed x = s.drainClosed x
  leaving : t.leaving x = s.leaving x
  target : t.targetClosed x = s.targetClosed x
  engine : t.rle = s.rle ∧ t.engineClosed x = s.engineClosed x ∨
    s.engineClosed x = s.rle ∧ t.engineClosed x = t.rle

/-- The close of one window leaves that of another as it will be. -/
theorem ClosesDone.untouched (hc : ClosesDone s t q cause [w]) (h : s.pool.Coherent) (hx : x ≠ w)
    (hrle : t.rle = s.engineClosed w) : s.Untouched t x := by
  have hwindow : t.window x = s.window x := hc.others x (by simpa using hx)
  have hflight : ∀ r, t.inFlight r x = s.inFlight r x := fun r => by
    rw [State.inFlight, hc.ports r]
    rfl
  have hengine : t.rle = s.rle ∨ s.Aloof x (s.window x).extents ∧ t.Aloof x (s.window x).extents :=
    State.aloof_or_same hrle hx fun e hw he => hx (State.window_of_mem_extents h he hw)
  have htarget : t.targetLeaving (s.window x).extents = s.targetLeaving (s.window x).extents := by
    rcases hengine with he | ⟨hs, ht⟩
    · rw [State.targetLeaving, he, State.targetLeaving]
    · rw [hs.target, ht.target]
  have hjoins : t.engineJoins (s.window x).extents = s.engineJoins (s.window x).extents := by
    rcases hengine with he | ⟨hs, ht⟩
    · rw [State.engineJoins, he, State.engineJoins]
    · rw [hs.joins, ht.joins]
  have hwas : t.wasTarget x = s.wasTarget x := funext fun e => by
    rcases hengine with he | ⟨hs, ht⟩
    · rw [State.wasTarget, he, State.wasTarget]
    · rw [hs.was, ht.was]
  have hdrain : t.drainClosed x = s.drainClosed x := by
    simp only [State.drainClosed, State.drainAfter, hwindow, hflight, hjoins]
  refine ⟨hwindow, hdrain, ?_, ?_, ?_⟩
  · simp only [State.leaving, State.retiringAfter, hwindow, hwas, htarget]
  · rw [State.targetClosed, hwindow, htarget]
  · rcases hengine with he | ⟨hs, ht⟩
    · refine Or.inl ⟨he, ?_⟩
      have hd := hdrain
      simp only [State.drainClosed, hwindow] at hd
      simp only [State.engineClosed, State.engineAfter_eq, State.engineLeft, hwindow, hd, htarget, he]
    · exact Or.inr ⟨hs.engineAfter, by rw [State.engineClosed, hwindow, ht.engineAfter]⟩

theorem State.Untouched.closedRecord (h : s.Untouched t x) : t.closedRecord false x = s.closedRecord false x := by
  have hdrain := h.drain
  have hleaving := h.leaving
  simp only [State.drainClosed, State.leaving, h.window] at hdrain hleaving
  simp only [State.closedRecord, h.window, hdrain, hleaving]

theorem State.Untouched.closeTells (h : s.Untouched t x) (hs : t.supervisor = s.supervisor) (r : Port) (k : Kind) :
    t.CloseTells q cause x r k ↔ s.CloseTells q cause x r k := by
  simp only [State.CloseTells, h.drain, h.target, h.window, hs]

/-- One close, and then more, of windows that it leaves untouched. -/
theorem ClosesDone.cons (hc : ClosesDone s t q cause [w]) (hrest : ClosesDone t v q cause l) (h : s.pool.Coherent)
    (hw : w ∉ l) (hsame : ∀ x ∈ l, s.Untouched t x) : ClosesDone s v q cause (w :: l) := by
  have hsup : t.supervisor = s.supervisor := by rw [hc.frame]; rfl
  have hapart : ∀ x ∈ l, ∀ e ∈ s.leaving x, e ∉ s.leaving w := fun x hx e he he' =>
    hw (State.slot_of_mem_leaving h he' he ▸ hx)
  have hself := List.mem_singleton_self w
  have hothers : ∀ e, (∀ x ∈ l, e ∉ s.leaving x) → v.entry e = t.entry e := fun e he =>
    hrest.stayed e fun x hx => (hsame x hx).leaving ▸ he x hx
  refine ⟨?_, fun x hx => ?_, fun x hx => ?_, fun x hx e he => ?_, fun e he => ?_, ?_, ?_, fun x hx hne => ?_,
    fun ha => ?_, ?_, fun r => ?_, fun r k => ?_⟩
  · rw [hrest.frame, hc.frame]
  · rcases List.mem_cons.1 hx with rfl | hx
    · rw [hrest.others x hw, hc.closed x hself]
    · rw [hrest.closed x hx, (hsame x hx).closedRecord]
  · rw [List.mem_cons, not_or] at hx
    rw [hrest.others x hx.2, hc.others x (by simpa using hx.1)]
  · rcases List.mem_cons.1 hx with rfl | hx
    · rw [hothers e fun y hy hey => hapart y hy e hey he, hc.left x hself e he]
    · rw [hrest.left x hx e ((hsame x hx).leaving.symm ▸ he), (hsame x hx).drain,
        hc.stayed e (by simpa using hapart x hx e he)]
  · rw [List.forall_mem_cons] at he
    rw [hothers e he.2, hc.stayed e (by simpa using he.1)]
  · rw [hrest.reloc, hc.reloc, List.filter_filter]
    refine List.filter_congr fun e _ => ?_
    have hl : (∀ x ∈ l, e ∉ (t.window x).extents) ↔ ∀ x ∈ l, e ∉ (s.window x).extents :=
      forall₂_congr fun x hx => by rw [(hsame x hx).window]
    simp [hl, Bool.and_comm]
  · have hfilter : (l.filter fun x => decide (t.drainClosed x = DrainSet.empty)) =
        l.filter fun x => decide (s.drainClosed x = DrainSet.empty) :=
      List.filter_congr fun x hx => by rw [(hsame x hx).drain]
    have hflat : (l.filter fun x => decide (s.drainClosed x = DrainSet.empty)).flatMap t.leaving =
        (l.filter fun x => decide (s.drainClosed x = DrainSet.empty)).flatMap s.leaving :=
      List.flatMap_congr fun x hx => (hsame x (List.mem_of_mem_filter hx)).leaving
    rw [hrest.wipe, hc.wipe, hfilter, hflat, List.append_assoc, ← List.flatMap_append, ← List.filter_append]
    rfl
  · rcases List.mem_cons.1 hx with rfl | hx
    · have ht := hc.engine x hself hne
      refine (hrest.alone fun y hy => ?_).trans ht
      rcases (hsame y hy).engine with ⟨hsm, -⟩ | ⟨-, hal⟩
      · exact absurd (ht.symm.trans hsm) hne
      · exact hal
    · rcases (hsame x hx).engine with ⟨hsm, heng⟩ | ⟨hal, -⟩
      · rw [← heng, ← hsm] at hne
        rw [hrest.engine x hx hne, heng]
      · exact absurd hal hne
  · rw [List.forall_mem_cons] at ha
    have ht := hc.alone (by simpa using ha.1)
    refine (hrest.alone fun x hx => ?_).trans ht
    rcases (hsame x hx).engine with ⟨hsm, heng⟩ | ⟨-, hal⟩
    · rw [heng, ha.2 x hx, hsm]
    · exact hal
  · have hl : (∃ x ∈ l, t.targetClosed x ≠ []) ↔ ∃ x ∈ l, s.targetClosed x ≠ [] :=
      exists_congr fun x => and_congr_right fun hx => by rw [(hsame x hx).target]
    rw [hrest.handed, hc.handed]
    simp only [hl, List.exists_mem_cons_iff, List.not_mem_nil, false_and, exists_false, or_false]
    by_cases hl' : ∃ x ∈ l, s.targetClosed x ≠ [] <;> by_cases hw' : s.targetClosed w ≠ [] <;> simp [hl', hw']
  · rw [hrest.ports r, hc.ports r]
  · have hl : (∃ x ∈ l, t.CloseTells q cause x r k) ↔ ∃ x ∈ l, s.CloseTells q cause x r k :=
      exists_congr fun x => and_congr_right fun hx => (hsame x hx).closeTells hsup r k
    rw [hrest.told r k, hc.told r k]
    simp only [hl, List.exists_mem_cons_iff, List.not_mem_nil, false_and, exists_false, or_false, or_assoc]

/-- The closes of OPEN windows of one owner in any order (R165, log 10). -/
theorem State.closesDone_closes (l : List WSlot) : ∀ s : State, s.WindowsWf → s.pool.Coherent → l.Nodup →
    (∀ w ∈ l, s.Closes q w) → ClosesDone s (l.foldl (fun t w => t.closeWindow cause false w) s) q cause l := by
  induction l with
  | nil => exact fun s _ _ _ _ => .refl s q cause
  | cons w l ih =>
    intro s hwf hpool hn hcloses
    obtain ⟨hw, hn⟩ := List.nodup_cons.1 hn
    obtain ⟨⟨hopen, howner⟩, hl⟩ := List.forall_mem_cons.1 hcloses
    have hstep := State.closesDone_closeWindow (cause := cause) hpool howner
    have hrle := (State.extentsLeft_closeWindow (cause := cause) (forced := false) howner
      (State.waiting_of_coherent hpool w)).2.2.2.1
    have hcarries : s.Carries (s.closeWindow cause false w) := State.carries_closeWindow hopen
    have hsame : ∀ x ∈ l, s.Untouched (s.closeWindow cause false w) x := fun x hx =>
      hstep.untouched hpool (fun he => hw (he ▸ hx)) hrle
    refine hstep.cons (ih _ (hcarries.windows hwf) (hcarries.pool hwf hpool) hn fun x hx => ?_) hpool hw hsame
    rw [State.Closes, (hsame x hx).window]
    exact hl x hx

/-- The closes of a reset (R165). -/
theorem State.closesDone_closeOwned (hwf : s.WindowsWf) (hpool : s.pool.Coherent) (q cause : Port) :
    ClosesDone s (s.closeOwned q cause) q cause (s.closeOrder q) := by
  have hc := State.closesDone_closes (cause := cause) (s.closeOrder q) s hwf hpool (s.closeOrder_nodup q)
    fun w hw => State.mem_closeOrder.1 hw
  refine { hc with frame := ?_ }
  unfold State.closeOwned
  rw [hc.frame]

end Closes

end Sys2Proof.Machine
end
section
/-!
A window's record without an agent's views and offers, in the rules' own terms (R6, R98, R165).
-/

namespace Sys2Proof.Machine

section Vacating

variable {s : State} {x : Window} {q : Port} {w : WSlot}

/-- A record with no part of the agent is left alone. -/
theorem Window.withoutAgent_of_noPart (hno : ∀ k, (x.grant k).agent ≠ some q)
    (hview : x.state = .retiring → x.hasView = true) : x.withoutAgent q = x := by
  have hsame : ({ x with grants := Tab.mapAll x.grants fun _ g => if g.isOf q then .vacant else g } : Window) = x :=
    Window.ext_grants rfl fun k => by
      rw [Window.grant_mapAll, if_neg fun h => hno k ((Grant.isOf_iff _ q).1 h)]
  unfold Window.withoutAgent
  rw [hsame]
  cases hs : x.state with
  | retiring => exact if_pos (hview hs)
  | vacant | opened | draining => rfl

/-- The record of a window that the reset does not close (R98, R165). -/
theorem Window.withoutAgent_eq_vacatedBy (hx : x.Wf) : x.withoutAgent q = x.vacatedBy q := by
  unfold Window.vacatedBy
  dsimp only
  split
  · next hno => exact Window.withoutAgent_of_noPart hno fun hr => (hx.body.rests hr).2
  · have hno : ∀ y : Window, (∀ k, (y.grant k).isView = false) ↔ ¬ y.hasView = true := fun y => by
      simp [Window.hasView_iff]
    simp only [hno, Window.withoutAgent, Grant.isOf, decide_eq_true_iff]
    cases hs : x.state with
    | retiring =>
      simp only [true_and]
      split <;> rfl
    | vacant | opened | draining => rfl

/-- No slot is the agent's afterwards. -/
theorem Window.agent_withoutAgent (x : Window) (q : Port) (k : GSlot) :
    ((x.withoutAgent q).grant k).agent ≠ some q := by
  have hvacated : ((Window.grant { x with
      grants := Tab.mapAll x.grants fun _ g => if g.isOf q then .vacant else g }) k).agent ≠ some q := by
    rw [Window.grant_mapAll]
    split
    · nofun
    · next h => exact fun ha => h ((Grant.isOf_iff _ q).2 ha)
  unfold Window.withoutAgent
  dsimp only
  split
  · split
    · exact hvacated
    · rw [Window.grant_vacantAt]
      nofun
  all_goals exact hvacated

/-- A window that is OPEN afterwards was OPEN, of the same owner. -/
theorem Window.opened_withoutAgent (h : (x.withoutAgent q).state = .opened) :
    x.state = .opened ∧ (x.withoutAgent q).owner = x.owner := by
  unfold Window.withoutAgent at h ⊢
  dsimp only at h ⊢
  split at h
  · next hs =>
    split at h
    · exact absurd (hs.symm.trans h) nofun
    · cases h
  all_goals
    next hs => exact ⟨h, rfl⟩

theorem State.closedRecord_not_opened (s : State) (forced : Bool) (w : WSlot) :
    (s.closedRecord forced w).state ≠ .opened := by
  unfold State.closedRecord
  dsimp only
  split
  · nofun
  · split <;> nofun

/-- A close leaves the owner without a part of the window (R90). -/
theorem Window.agent_grantsClosed (hx : x.Wf) (hs : x.state = .opened) (ho : x.owner = some q) (k : GSlot) :
    (Tab.get (x.grantsClosed false) k).agent ≠ some q := by
  rw [Window.grantsClosed, Tab.get_mapAll]
  by_cases hk : k = 0
  · subst hk
    obtain ⟨o, b, -, hg⟩ := hx.body.ownerView hs
    have hzero : Tab.get x.grants 0 = .active o .readWrite b := hg
    rw [hzero, Grant.closed, if_pos ⟨rfl, rfl⟩]
    nofun
  · have hother : (x.grant k).agent ≠ some q := fun ha =>
      hx.body.grantees k hk (by rw [ha]; nofun) (ha.trans ho.symm)
    have hget : Tab.get x.grants k = x.grant k := rfl
    rw [hget]
    cases hg : x.grant k with
    | active a r b =>
      rw [hg] at hother
      rw [Grant.closed, if_neg fun h => hk h.1]
      exact hother
    | revoked a r b =>
      rw [hg] at hother
      exact hother
    | offered | vacant => nofun

/-- What follows a close in a reset leaves the closed window's record alone. -/
theorem State.withoutAgent_closedRecord (hx : (s.window w).Wf) (hc : s.Closes q w) :
    (s.closedRecord false w).withoutAgent q = s.closedRecord false w := by
  have hno := Window.agent_grantsClosed hx hc.1 hc.2
  unfold State.closedRecord
  dsimp only
  split
  · exact Window.withoutAgent_of_noPart hno nofun
  · split
    · next hv => exact Window.withoutAgent_of_noPart hno fun _ => (Window.hasView_iff _).2 hv
    · exact Window.withoutAgent_of_noPart (fun k => by rw [Window.grant_vacantAt]; nofun) nofun

/-- An agent with no grant slot holds no view and no offer. -/
theorem State.no_part (h : ∀ w k, ((s.window w).grant k).agent ≠ some q) :
    s.viewsHeld q = 0 ∧ s.offersTo q = [] := by
  constructor
  · rw [State.viewsHeld, List.length_eq_zero_iff, List.eq_nil_iff_forall_not_mem]
    intro v hv
    obtain ⟨w, k, hview⟩ := State.mem_viewsOf.1 hv
    obtain ⟨-, -, -, hg⟩ := State.viewAt_eq_some hview
    refine h w k ?_
    rw [hg]
    split <;> rfl
  · rw [List.eq_nil_iff_forall_not_mem]
    rintro ⟨w, k⟩ hv
    obtain ⟨r, n, hg⟩ := State.mem_offersTo_iff.1 hv
    exact h w k (by rw [hg]; rfl)

/-- An owner of no OPEN window owns no windows and no extents. -/
theorem State.no_owned (h : ∀ w, ¬ s.Closes q w) : s.ownedWindows q = 0 ∧ s.ownedExtents q = 0 := by
  have hnil : s.ownedBy q = [] := by
    rw [State.ownedBy, List.filter_eq_nil_iff]
    intro w _ hw
    rw [Bool.and_eq_true, decide_eq_true_iff, decide_eq_true_iff] at hw
    exact h w hw
  rw [State.ownedWindows, State.ownedExtents, hnil]
  exact ⟨rfl, rfl⟩

theorem State.sharesWith_iff {r : Port} : s.sharesWith q r = true ↔
    ∃ w, s.Closes r w ∧ ∃ k, ((s.window w).grant k).agent = some q := by
  simp [State.sharesWith, Window.anyGrant, Grant.isOf_iff]

end Vacating

end Sys2Proof.Machine
end
section
/-!
The reset of a port in the rules' own terms (R60, R64, R163 to R165), by its ARSTn pin and by RESET PORT.
-/

namespace Sys2Proof.Machine

section Reset

variable {s u v : State} {q cause : Port} {l : List WSlot}

/-- The part at the closes of a reset, once the port's slot and access are reset (log 35): its mask, fault record and
response are gone (R64, R74, R77). -/
def State.unmasked (u : State) (q : Port) : State :=
  u.updPort q fun x => { x with mask := 0, fault := none, response := none }

/-- What follows the closes of a reset: the port's views and offers vacated, its attention set emptied. -/
def State.vacated (v : State) (q cause : Port) : State :=
  (v.vacateAgent q cause).updPort q fun x => { x with attention := 0 }

theorem State.resetPort_eq (s : State) (q cause : Port) : s.resetPort q cause =
    ((((s.slotAborted q).accessReset q).unmasked q).closeOwned q cause).vacated q cause := by
  unfold State.resetPort
  rw [State.abortSlot_eq_slotAborted, State.resetAccess_eq_accessReset]
  rfl

theorem State.port_unmasked (r : Port) : (u.unmasked q).port r =
    if r = q then { u.port r with mask := 0, fault := none, response := none } else u.port r :=
  u.port_updPort q r _

theorem State.outline_unmasked (u : State) (q : Port) : (u.unmasked q).outline = u.outline := rfl

theorem State.drainAfter_unmasked (u : State) (q : Port) (w : WSlot) (k : List Extent) :
    (u.unmasked q).drainAfter w k = u.drainAfter w k := by
  have hflight : ∀ r, (u.unmasked q).inFlight r w = u.inFlight r w := fun r => by
    have haccess : ((u.unmasked q).port r).access = (u.port r).access := by
      rw [State.port_unmasked]
      split <;> rfl
    rw [State.inFlight, haccess]
    rfl
  simp only [State.drainAfter, hflight]
  rfl

theorem State.drainClosed_unmasked (u : State) (q : Port) (w : WSlot) :
    (u.unmasked q).drainClosed w = u.drainClosed w := u.drainAfter_unmasked q w _

theorem State.closedRecord_unmasked (u : State) (q : Port) (w : WSlot) :
    (u.unmasked q).closedRecord false w = u.closedRecord false w := by
  unfold State.closedRecord
  rw [State.drainAfter_unmasked]
  rfl

theorem State.engineClosed_unmasked (u : State) (q : Port) (w : WSlot) :
    (u.unmasked q).engineClosed w = u.engineClosed w := by
  unfold State.engineClosed
  rw [State.engineAfter_eq, State.engineAfter_eq, State.drainAfter_unmasked]
  rfl

theorem State.window_vacated (w : WSlot) : (v.vacated q cause).window w = (v.window w).withoutAgent q :=
  Tab.get_mapAll _ _ _

theorem State.port_vacated (r : Port) : (v.vacated q cause).port r =
    if r = q then { v.port r with attention := 0 } else
      { v.port r with attention :=
          KindSet.addIf (v.sharesWith q r && decide (r ≠ cause)) (v.port r).attention .grants } := by
  refine (State.port_updPort _ q r _).trans ?_
  have hport : (v.vacateAgent q cause).port r = { v.port r with
      attention := KindSet.addIf (v.sharesWith q r && decide (r ≠ cause)) (v.port r).attention .grants } :=
    State.port_addAttentionWhere _ _ r .grants
  rw [hport]

/-- The windows OPEN after the closes are the others, unchanged (R165). -/
theorem ClosesDone.closes_iff (hc : ClosesDone (u.unmasked q) v q cause l) (hl : ∀ w, w ∈ l ↔ u.Closes q w) (r : Port)
    (w : WSlot) : v.Closes r w ↔ r ≠ q ∧ u.Closes r w := by
  by_cases hw : w ∈ l
  · have hclosed : (v.window w).state ≠ .opened := by
      rw [hc.closed w hw]
      exact State.closedRecord_not_opened _ _ _
    refine iff_of_false (fun h => hclosed h.1) fun ⟨hr, h⟩ => hr ?_
    exact Option.some.inj (h.2.symm.trans ((hl w).1 hw).2)
  · have hsame : v.window w = u.window w := hc.others w hw
    rw [State.Closes, hsame]
    refine ⟨fun h => ⟨?_, h⟩, fun h => h.2⟩
    rintro rfl
    exact hw ((hl w).2 h)

/-- The windows of the port, their extents and the engine after a reset (R33, R38, R89, R91, R94, R149, R165). -/
theorem ClosesDone.resetCloses (hc : ClosesDone (u.unmasked q) v q cause l) (hn : l.Nodup)
    (hl : ∀ w, w ∈ l ↔ u.Closes q w) (hwf : ∀ w, (u.window w).Wf) : ResetCloses u (v.vacated q cause) q := by
  refine ⟨fun w hw => ?_, fun w hw e he => ?_, fun e he => ?_, ?_, ?_, fun w hw hne => ?_, fun ha => ?_, ?_⟩
  · rw [State.window_vacated, hc.closed w ((hl w).2 hw), State.closedRecord_unmasked,
      State.withoutAgent_closedRecord (hwf w) hw]
  · have hleft := hc.left w ((hl w).2 hw) e he
    rw [State.drainClosed_unmasked] at hleft
    exact hleft
  · exact hc.stayed e fun w hw => he w ((hl w).1 hw)
  · refine hc.reloc.trans (List.filter_congr fun e _ => ?_)
    simp only [hl]
    rfl
  · refine ⟨l.filter fun w => decide (u.drainClosed w = DrainSet.empty), hn.filter _, fun w => ?_, ?_⟩
    · rw [List.mem_filter, hl, decide_eq_true_iff]
    · have hwipe := hc.wipe
      simp only [State.drainClosed_unmasked] at hwipe
      exact hwipe
  · have hengine := hc.engine w ((hl w).2 hw)
    rw [State.engineClosed_unmasked] at hengine
    exact hengine hne
  · exact hc.alone fun w hw => (u.engineClosed_unmasked q w).trans (ha w ((hl w).1 hw))
  · have hhanded := hc.handed
    simp only [hl] at hhanded
    exact hhanded

/-- Nothing else changes. -/
theorem ClosesDone.frame_vacated (hc : ClosesDone (u.unmasked q) v q cause l) : v.vacated q cause = { u with
    windows := (v.vacated q cause).windows, extents := (v.vacated q cause).extents
    wipeList := (v.vacated q cause).wipeList, relocList := (v.vacated q cause).relocList
    rle := (v.vacated q cause).rle, abandonHanded := (v.vacated q cause).abandonHanded
    ports := (v.vacated q cause).ports, freeIdx := (v.vacated q cause).freeIdx } := by
  obtain ⟨a, b, c, d, e, f, g, i, hv⟩ : ∃ a b c d e f g i, v = { u with
      windows := a, extents := b, wipeList := c, relocList := d, rle := e, abandonHanded := f, ports := g
      freeIdx := i } := ⟨_, _, _, _, _, _, _, _, hc.frame⟩
  rw [hv]
  rfl

/-- What a reset tells the other ports (R76, R165). -/
theorem ClosesDone.told_vacated (hc : ClosesDone (u.unmasked q) v q cause l) (hl : ∀ w, w ∈ l ↔ u.Closes q w)
    {r : Port} (hr : r ≠ q) (k : Kind) : KindSet.has ((v.vacated q cause).port r).attention k = true ↔
    KindSet.has (u.port r).attention k = true ∨
    (r ≠ cause ∧ k = .views ∧ ∃ w, u.Closes q w ∧ ∃ j x b, j ≠ 0 ∧ (u.window w).grant j = .active r x b) ∨
    (r ≠ cause ∧ k = .offers ∧ ∃ w, u.Closes q w ∧ ∃ j x n, (u.window w).grant j = .offered r x n) ∨
    (r ≠ cause ∧ k = .grants ∧ ∃ w, u.Closes r w ∧ ∃ j, ((u.window w).grant j).agent = some q) ∨
    (r = u.supervisor ∧ k = .moved ∧ ∃ w, u.Closes q w ∧ u.targetLeaving (u.window w).extents ≠ []) := by
  have hshare : v.sharesWith q r = true ↔ ∃ w, u.Closes r w ∧ ∃ j, ((u.window w).grant j).agent = some q := by
    rw [State.sharesWith_iff]
    refine exists_congr fun w => ?_
    rw [hc.closes_iff hl r w, and_iff_right hr]
    refine and_congr_right fun hw => ?_
    have hsame : v.window w = u.window w := hc.others w fun hmem =>
      hr (Option.some.inj (hw.2.symm.trans ((hl w).1 hmem).2))
    rw [hsame]
  have htells : ∀ w, (u.unmasked q).CloseTells q cause w r k ↔
      (r = u.supervisor ∧ k = .moved ∧ u.targetLeaving (u.window w).extents ≠ []) ∨
      (r ≠ cause ∧ k = .views ∧ ∃ j x b, j ≠ 0 ∧ (u.window w).grant j = .active r x b) ∨
      (r ≠ cause ∧ k = .offers ∧ ∃ j x n, (u.window w).grant j = .offered r x n) := fun w => by
    refine (or_iff_right fun h => hr h.1).trans (or_congr Iff.rfl (or_congr ?_ Iff.rfl))
    simp only [and_comm (a := _ = Grant.active _ _ _)]
    rfl
  have htold := hc.told r k
  simp only [htells, hl] at htold
  rw [State.port_vacated, if_neg hr, KindSet.has_addIf, Bool.or_eq_true, htold, State.port_unmasked, if_neg hr]
  simp only [Bool.and_eq_true, decide_eq_true_iff, hshare]
  have hturn : ∀ a b c : Prop, (a ∧ b) ∧ c ↔ b ∧ c ∧ a := by tauto
  have hlast : ∀ a b c d e : Prop, (a ∨ b ∨ c ∨ d) ∨ e ↔ a ∨ c ∨ d ∨ e ∨ b := by tauto
  simp only [and_or_left, exists_or, and_left_comm (a := u.Closes q _), exists_and_left]
  rw [hlast, hturn]

/-- The record of the port that is reset, and those of the others (R64, R74, R77, R164, R165). -/
theorem ClosesDone.port_vacated (hc : ClosesDone (u.unmasked q) v q cause l) :
    (v.vacated q cause).port q = { u.port q with attention := 0, mask := 0, fault := none, response := none } ∧
    ∀ r, r ≠ q → (v.vacated q cause).port r =
      { u.port r with attention := ((v.vacated q cause).port r).attention } := by
  refine ⟨?_, fun r hr => ?_⟩
  · rw [State.port_vacated, if_pos rfl, hc.ports q, State.port_unmasked, if_pos rfl]
  · rw [State.port_vacated, if_neg hr, hc.ports r, State.port_unmasked, if_neg hr]

/-- The port has no part of any window afterwards (R165). -/
theorem ClosesDone.nothing_left (hc : ClosesDone (u.unmasked q) v q cause l) (hl : ∀ w, w ∈ l ↔ u.Closes q w) :
    (v.vacated q cause).ownedWindows q = 0 ∧ (v.vacated q cause).ownedExtents q = 0 ∧
    (v.vacated q cause).viewsHeld q = 0 ∧ (v.vacated q cause).offersTo q = [] := by
  have howned : ∀ w, ¬ (v.vacated q cause).Closes q w := fun w hw => by
    rw [State.Closes, State.window_vacated] at hw
    obtain ⟨hopen, howner⟩ := Window.opened_withoutAgent hw.1
    exact ((hc.closes_iff hl q w).1 ⟨hopen, howner.symm.trans hw.2⟩).1 rfl
  have hparts : ∀ w k, (((v.vacated q cause).window w).grant k).agent ≠ some q := fun w k => by
    rw [State.window_vacated]
    exact Window.agent_withoutAgent _ q k
  obtain ⟨hwindows, hextents⟩ := State.no_owned howned
  obtain ⟨hviews, hoffers⟩ := State.no_part hparts
  exact ⟨hwindows, hextents, hviews, hoffers⟩

theorem State.supervisor_accessReset (s : State) (q : Port) :
    ((s.slotAborted q).accessReset q).supervisor = s.supervisor := by
  have hkept : ((s.slotAborted q).accessReset q).kept = s.kept := by
    rw [← State.abortSlot_eq_slotAborted, ← State.resetAccess_eq_accessReset, State.kept_resetAccess,
      State.kept_abortSlot]
  exact congrArg Straps.supervisor (congrArg Kept.straps hkept)

theorem State.carries_accessReset (s : State) (q : Port) : s.Carries ((s.slotAborted q).accessReset q) := by
  rw [← State.abortSlot_eq_slotAborted, ← State.resetAccess_eq_accessReset]
  exact (State.Carries.of_outline (s.outline_abortSlot q)).trans (State.carries_resetAccess _ q)

/-- The reset of a port is what the rules say, in a part whose windows and extents agree (R60, R64, R163 to R165). -/
theorem State.portResetDone_resetPort (hwf : s.WindowsWf) (hpool : s.pool.Coherent) (q cause : Port) :
    PortResetDone s (s.resetPort q cause) q cause := by
  have hcarries := (s.carries_accessReset q).quiet (State.outline_unmasked _ q)
  have hc := State.closesDone_closeOwned (hcarries.windows hwf) (hcarries.pool hwf hpool) q cause
  have hl := fun w => State.mem_closeOrder (s := ((s.slotAborted q).accessReset q).unmasked q) (p := q) (w := w)
  have hwf' := ((s.carries_accessReset q).windows hwf).1
  obtain ⟨hport, hports⟩ := hc.port_vacated
  rw [State.resetPort_eq]
  refine ⟨_, rfl, hc.frame_vacated, hc.resetCloses (State.closeOrder_nodup _ q) hl hwf', fun w hw => ?_, hport, hports,
    fun r k hr => ?_, hc.nothing_left hl⟩
  · rw [State.window_vacated, hc.others w fun hmem => hw ((hl w).1 hmem)]
    exact Window.withoutAgent_eq_vacatedBy (hwf' w)
  · rw [← s.supervisor_accessReset q]
    exact hc.told_vacated hl hr k

end Reset

section Settled

variable {s : State} {p q : Port}

/-- Settles O5: the pin's three cases, its reset by `State.portResetDone_resetPort`. -/
theorem arstnPinResetsPort : Obligations.ArstnPinResetsPort := by
  intro p s
  refine ⟨fun hrun hn hinv => ?_, fun hrun hn => ?_, fun hreset => ?_, rfl⟩
  · have hcarries : s.Carries (s.withArstn p true) := .of_outline (s.outline_updPort p _)
    obtain ⟨hwf, hpool⟩ := s.poolInv_iff.1 hinv
    refine ⟨(s.withArstn p true).resetPort p p,
      State.portResetDone_resetPort (hcarries.windows hwf) (hcarries.pool hwf (hpool hn)) p p, ?_⟩
    show execArstnAssert p s = _
    unfold execArstnAssert
    rw [hrun, hn]
    rfl
  · show execArstnAssert p s = _
    unfold execArstnAssert
    rw [hrun, hn]
    rfl
  · show execArstnAssert p s = _
    unfold execArstnAssert
    rw [hreset]
    rfl

/-- RESET PORT refuses no port and the Supervisor Port (R163). -/
theorem resetPortVerdict_badRange (h : 6 ≤ (s.args p).w0.toNat ∨ (s.args p).w0.toNat = s.supervisor.val) :
    resetPortVerdict p s = .refuse .badRange := by
  unfold resetPortVerdict
  rcases h with h | h
  · rw [portArg_of_le h]
  · rw [portArg_of_eq h]
    exact if_pos rfl

theorem resetPortVerdict_named (h : (s.args p).w0.toNat = q.val) (hq : q ≠ s.supervisor) :
    resetPortVerdict p s = .finished (s.resetPort q p).settle Words4.zero := by
  unfold resetPortVerdict
  rw [portArg_of_eq h]
  exact if_neg hq

/-- Settles O6: the two checks of the argument, the reset by `State.portResetDone_resetPort`. -/
theorem resetPortResetsNamedPort : Obligations.ResetPortResetsNamedPort := by
  intro s p hp hdue
  refine ⟨fun hrange => ?_, fun q hq hne hinv => ?_⟩
  · exact exec_of_supervisor_refuse hp rfl rfl hdue (resetPortVerdict_badRange (s := s.served p) (hp ▸ hrange))
  · have hcarries : s.Carries (s.served p) := .of_outline rfl
    have hn : s.resetn = false := hdue.1
    obtain ⟨hwf, hpool⟩ := s.poolInv_iff.1 hinv
    have hframe : ((s.served p).resetPort q p).frame = s.frame := State.frame_resetPort _ q p
    have hserved : ((s.served p).resetPort q p).lastServed = p :=
      congrArg Kept.lastServed (State.kept_resetPort (s.served p) q p)
    have hbody : supervisorOnly p (s.served p) (resetPortVerdict p) =
        .finished ((s.served p).resetPort q p).settle Words4.zero :=
      (supervisorOnly_of_eq (s := s.served p) hp _).trans
        (resetPortVerdict_named (s := s.served p) hq fun h => hne (h.trans hp.symm))
    exact ⟨(s.served p).resetPort q p,
      State.portResetDone_resetPort (hcarries.windows hwf) (hcarries.pool hwf (hpool hn)) q p,
      congrFun (congrArg Frame.arstn hframe) q,
      exec_of_settled (c := .resetPort p) rfl rfl hdue hserved hbody⟩

end Settled

end Sys2Proof.Machine
end

section
/-!
The step at its queue: one equation of `step` for each of the queue's two forms, as equalities of outcomes, where
`step_cases` reads a step that answered a next state. The statements about the front command and the idle part follow.
-/

namespace Sys2Proof.Machine

section Queue

variable {s : State}

/-- With no command waiting the part idles (log 4). -/
theorem step_of_pending_nil (hempty : s.pending = []) : step s = .next s := by
  unfold step
  rw [hempty]

/-- The command at the front is taken off the queue before its meaning runs. -/
theorem step_of_pending_cons {c : Instr} {rest : List Instr} (hfront : s.pending = c :: rest) :
    step s = exec c { s with pending := rest } := by
  unfold step
  rw [hfront]

/-- Settles O1: the queue with `c` in front is a cons, and taking `c` off gives the queue of `s` back. -/
theorem stepRunsFrontCommand : Obligations.StepRunsFrontCommand := by
  intro c s
  have hfront : { s with pending := c :: s.pending }.pending = c :: s.pending := rfl
  exact step_of_pending_cons hfront

/-- Settles O2: the empty queue is the first of the two forms. -/
theorem emptyQueueLeavesState : Obligations.EmptyQueueLeavesState :=
  fun _ hempty => step_of_pending_nil hempty

end Queue

end Sys2Proof.Machine
end
section
/-!
OPEN's effect in the rules' own terms (R28, R79): the lowest VACANT slot and the record written into it.
-/

namespace Sys2Proof.Machine

section OpenEffect

variable {s : State} {p : Port} {w : WSlot}

/-- The slot that OPEN takes is the lowest VACANT one (R79). -/
theorem State.vacantSlot_eq_some_iff :
    s.vacantSlot = some w ↔ (s.window w).state = .vacant ∧ ∀ v, v < w → (s.window v).state ≠ .vacant := by
  rw [State.vacantSlot, ← Fin.find?_eq_find?_finRange, Fin.find?_eq_some_iff]
  simp

/-- An OPEN whose status is OK has passed the check for a VACANT slot (R78). -/
theorem State.vacantSlot_isSome_of_openStatus {n base : Nat} (h : s.openStatus p n base = .ok) :
    ∃ w, s.vacantSlot = some w := by
  cases hslot : s.vacantSlot with
  | some w => exact ⟨w, rfl⟩
  | none =>
    rw [State.openStatus, if_pos (s.vacantSlot_eq_none_iff.1 hslot)] at h
    split_ifs at h

theorem State.opening_eq (hw : s.vacantSlot = some w) (n base : Nat) :
    s.opening p n base = .finished (s.openAt p w n base) (Words4.one (s.handleOf w).word) := by
  rw [State.opening, hw]

/-- The record that OPEN writes holds one view, in the owner's grant slot (R79). -/
theorem Window.opened_eq (x : Window) (p : Port) (l : List Extent) (base : Nat) : x.opened p l base =
    { state := .opened, gen := x.gen, owner := some p, extents := l, closedLen := 0
      grants := #v[.active p .readWrite base, .vacant, .vacant, .vacant, .vacant, .vacant]
      drain := DrainSet.empty, retiring := [] } := rfl

/-- Settles O17: the status OK leaves the effect of the verdict, in the lowest VACANT slot. -/
theorem openCreatesWindow : Obligations.OpenCreatesWindow := by
  intro p s hdue hok
  obtain ⟨w, hw⟩ := State.vacantSlot_isSome_of_openStatus hok
  obtain ⟨hvacant, hlowest⟩ := State.vacantSlot_eq_some_iff.1 hw
  refine ⟨w, hvacant, hlowest, ?_⟩
  exact exec_of_finished (t := s.openAt p w (s.args p).w0.toNat (s.args p).w1.toNat) rfl rfl hdue
    ((openVerdict_eq_judged (s.served p) p).trans ((Verdict.judged_of_ok hok _).trans
      (State.opening_eq (s := s.served p) hw _ _)))

end OpenEffect

end Sys2Proof.Machine
end
section
/-!
SET THRESHOLD, QUARANTINE and RESTORE in the rules' own terms (R30, R36, R159, R168).
-/

namespace Sys2Proof.Machine

section Threshold

variable {s : State} {p : Port} {n : Nat}

/-- The extents that reach a new threshold, by their counts before it (R36). -/
theorem State.reaching_lowerCounts (s : State) (n : Nat) : (s.lowerCounts n).reaching n = s.listedAt n := by
  rw [State.reaching, Tab.indices_eq_filter, State.listedAt]
  refine List.filter_congr fun e _ => ?_
  rw [State.lowerCounts, State.mapExtents_extents, Tab.get_mapAll]
  rfl

/-- A new threshold in force, before what follows at once (R36, R159). -/
theorem State.newThreshold_eq (s : State) (n : Nat) : s.newThreshold n =
    { s with
      threshold := n
      extents := Tab.mapAll s.extents fun _ x => { x with count := min x.count n }
      relocList := s.relocList ++ s.listedAt n } := by
  rw [State.newThreshold, s.reaching_lowerCounts]
  rfl

theorem setThresholdVerdict_badRange (h : ¬ (1 ≤ (s.args p).w0.toNat ∧ (s.args p).w0.toNat ≤ 15)) :
    setThresholdVerdict p s = .refuse .badRange := checks_fail (decide_eq_false h)

theorem setThresholdVerdict_finished (h : 1 ≤ (s.args p).w0.toNat ∧ (s.args p).w0.toNat ≤ 15) :
    setThresholdVerdict p s = .finished (s.newThreshold (s.args p).w0.toNat).settle
      ⟨numWord s.threshold, numWord (s.listedAt (s.args p).w0.toNat).length, 0, 0⟩ := by
  rw [← s.reaching_lowerCounts]
  exact checks_pass (decide_eq_true h)

/-- Settles O38: one check of the range, and then the effect, whose settling does not look at the arbiter's turn. -/
theorem thresholdIsSet : Obligations.ThresholdIsSet := by
  rintro s p n hp hdue rfl
  refine ⟨fun hrange => ?_, fun hlow hhigh => ?_⟩
  · exact exec_of_supervisor_refuse hp rfl rfl hdue (setThresholdVerdict_badRange (s := s.served p) hrange)
  · have hserved : ((s.served p).newThreshold (s.args p).w0.toNat).settle =
        (s.newThreshold (s.args p).w0.toNat).settle.served p :=
      (s.newThreshold (s.args p).w0.toNat).settle_served p
    rw [← s.newThreshold_eq]
    exact exec_of_supervisor_finished hp rfl rfl hdue
      ((setThresholdVerdict_finished (s := s.served p) ⟨hlow, hhigh⟩).trans
        (congrArg (Verdict.finished · _) hserved))

end Threshold

section Quarantine

variable {s : State} {p : Port} {e : Extent}

theorem quarantineVerdict_badRange (h : 1024 ≤ (s.args p).w0.toNat) :
    quarantineVerdict p s = .refuse .badRange := by
  rw [quarantineVerdict, extentArg_of_le h]

theorem quarantineVerdict_eq (he : (s.args p).w0.toNat = e.val) : quarantineVerdict p s =
    checks [(decide ((s.entry e).st = .free ∨ (s.entry e).st = .dirty), .state)]
      (.finished (s.quarantineExtent e) Words4.zero) := by
  rw [quarantineVerdict, extentArg_of_eq he]

theorem restoreVerdict_badRange (h : 1024 ≤ (s.args p).w0.toNat) : restoreVerdict p s = .refuse .badRange := by
  rw [restoreVerdict, extentArg_of_le h]

theorem restoreVerdict_eq (he : (s.args p).w0.toNat = e.val) : restoreVerdict p s =
    checks [((s.entry e).st.isQuarantined, .state)] (.finished (s.makeDirty [e]).settle Words4.zero) := by
  rw [restoreVerdict, extentArg_of_eq he]

theorem ExtState.isQuarantined_of_eq {x : ExtState} {c : Cause} (hx : x = .quarantined c) :
    x.isQuarantined = true := by
  rw [hx, ExtState.isQuarantined]

theorem ExtState.isQuarantined_of_ne {x : ExtState} (hx : ∀ c, x ≠ .quarantined c) : x.isQuarantined = false := by
  cases x with
  | quarantined c => exact absurd rfl (hx c)
  | free | bound | moving | target | retiring | dirty | wiping => rfl

/-- An extent that QUARANTINE takes from its list (R30, R168). -/
theorem State.quarantineExtent_eq (s : State) (e : Extent) : s.quarantineExtent e =
    State.told { s with
      extents := Tab.upd s.extents e fun x => { x with st := .quarantined .supervisor }
      freeList := s.freeList.filter fun x => decide (x ≠ e)
      wipeList := s.wipeList.filter fun x => decide (x ≠ e) } s.supervisor .quarantined := rfl

/-- One extent made DIRTY, as the change of its entry (R38). -/
theorem State.makeDirty_singleton (s : State) (e : Extent) : s.makeDirty [e] =
    { s with
      extents := Tab.upd s.extents e fun x => { x with st := .dirty }
      wipeList := s.wipeList ++ [e] } := by
  have hentries : Tab.mapAll s.extents (fun f x => if f ∈ [e] then { x with st := .dirty } else x) =
      Tab.upd s.extents e fun x => { x with st := .dirty } := Tab.ext fun f => by
    rw [Tab.get_mapAll, Tab.get_upd]
    simp only [List.mem_singleton]
  rw [State.makeDirty, State.mapExtents, hentries]

/-- Settles O42: the two verdicts past their extent number are one check of the extent's state and their effect. -/
theorem quarantineAndRestore : Obligations.QuarantineAndRestore := by
  intro s p hp
  refine ⟨fun hdue => ⟨fun hrange => ?_, fun e he => ⟨fun hfree hdirty => ?_, fun hstate => ?_⟩⟩,
    fun hdue => ⟨fun hrange => ?_, fun e he => ⟨fun hstate => ?_, fun c hstate => ?_⟩⟩⟩
  · exact exec_of_supervisor_refuse hp rfl rfl hdue (quarantineVerdict_badRange (s := s.served p) hrange)
  · exact exec_of_supervisor_refuse hp rfl rfl hdue ((quarantineVerdict_eq (s := s.served p) he).trans
      (checks_fail (decide_eq_false (not_or.2 ⟨hfree, hdirty⟩))))
  · have heffect : (s.served p).quarantineExtent e = (s.quarantineExtent e).served p := rfl
    rw [exec_of_supervisor_finished hp rfl rfl hdue ((quarantineVerdict_eq (s := s.served p) he).trans
      ((checks_pass (decide_eq_true hstate)).trans (congrArg (Verdict.finished · Words4.zero) heffect))),
      s.quarantineExtent_eq, ← hp]
  · exact exec_of_supervisor_refuse hp rfl rfl hdue (restoreVerdict_badRange (s := s.served p) hrange)
  · exact exec_of_supervisor_refuse hp rfl rfl hdue ((restoreVerdict_eq (s := s.served p) he).trans
      (checks_fail (ExtState.isQuarantined_of_ne hstate)))
  · have heffect : ((s.served p).makeDirty [e]).settle = (s.makeDirty [e]).settle.served p :=
      (s.makeDirty [e]).settle_served p
    rw [exec_of_supervisor_finished hp rfl rfl hdue ((restoreVerdict_eq (s := s.served p) he).trans
      ((checks_pass (ExtState.isQuarantined_of_eq hstate)).trans
        (congrArg (Verdict.finished · Words4.zero) heffect))), s.makeDirty_singleton]

end Quarantine

end Sys2Proof.Machine
end
section
/-!
What follows a take at once in the rules' own terms (R29, R41, R138 to R140; log 2), and the rows that start the bank
and the Wipe Engine (R41, R120, R121).
-/

namespace Sys2Proof.Machine

section AtOnce

variable (s : State)

/-- The Wipe Engine takes the head that is there to take (R41). -/
theorem State.wipeTaken_head {e : Extent} {rest : List Extent} (hw : s.wpe = .idle) (hb : s.bankReady = true)
    (hl : s.wipeList = e :: rest) : s.wipeTaken = { s with
      extents := Tab.upd s.extents e fun x => { x with st := .wiping }
      wipeList := rest
      wpe := .writing e 0 } := by
  rw [State.wipeTaken, hw, hb, hl]

/-- The Wipe Engine's take (R41). -/
theorem State.wpeTake_eq_wipeTaken : s.wpeTake = s.wipeTaken := by
  unfold State.wpeTake
  split
  · next e rest hw hb hl => exact (s.wipeTaken_head hw hb hl).symm
  · next hnone =>
    unfold State.wipeTaken
    split
    · next e rest hw hb hl => exact absurd hl (hnone e rest hw hb)
    all_goals rfl

theorem State.settle_eq : s.settle = s.rleSettle.wipeTaken.grantMemory := by
  rw [State.settle, State.wpeTake_eq_wipeTaken]

variable {s} {src tgt e : Extent} {rest free : List Extent}

/-- With nothing listed an engine at rest is IDLE (R138). -/
theorem State.rleSettle_unlisted (hr : s.rle = .idle ∨ s.rle = .waiting) (hl : s.relocList = []) :
    s.rleSettle = { s with rle := .idle } := by
  rw [State.rleSettle, hl]
  rcases hr with hr | hr <;> rw [hr]

/-- With an extent listed and none FREE an engine at rest waits (R140). -/
theorem State.rleSettle_waits (hr : s.rle = .idle ∨ s.rle = .waiting) (hl : s.relocList ≠ []) (hf : s.freeList = []) :
    s.rleSettle = { s with rle := .waiting } := by
  obtain ⟨src, rest, hl⟩ := List.exists_cons_of_ne_nil hl
  rw [State.rleSettle, hl, hf]
  rcases hr with hr | hr <;> rw [hr]

/-- With both lists filled an engine at rest starts on their heads (R139). -/
theorem State.rleSettle_starts (hr : s.rle = .idle ∨ s.rle = .waiting) (hl : s.relocList = src :: rest)
    (hf : s.freeList = tgt :: free) : s.rleSettle = s.startRelocation src tgt := by
  rw [State.rleSettle, hl, hf]
  rcases hr with hr | hr <;> rw [hr]

/-- An engine at work is left alone (R138). -/
theorem State.rleSettle_busy (hi : s.rle ≠ .idle) (hw : s.rle ≠ .waiting) : s.rleSettle = s := by
  unfold State.rleSettle
  cases hr : s.rle with
  | idle => exact absurd hr hi
  | waiting => exact absurd hr hw
  | copying | cutover | abandoning => rfl

/-- The Wipe Engine has taken the head once all has happened that follows at once (R41). -/
theorem State.settle_head (hw : s.wpe = .idle) (hb : s.bankReady = true) (hl : s.wipeList = e :: rest) :
    s.settle.wpe = .writing e 0 ∧ (s.settle.entry e).st = .wiping ∧ s.settle.wipeList = rest := by
  have hhead := s.rleSettle.wipeTaken_head (s.rleSettle_wpe.trans hw) (s.rleSettle_bankReady.trans hb)
    (s.rleSettle_wipeList.trans hl)
  rw [s.settle_eq, State.grantMemory_wpe, State.grantMemory_wipeList,
    State.entry_congr (State.grantMemory_extents _), hhead]
  exact ⟨rfl, congrArg Entry.st (Tab.get_upd_self _ _ _), rfl⟩

end AtOnce

section Starts

variable {s : State}

theorem exec_initializationComplete (hn : s.resetn = false) (hb : s.bankReady = false) :
    exec .initializationComplete s = .next (State.settle { s with bankReady := true }) := by
  rw [show exec .initializationComplete s = execInitializationComplete s from rfl, execInitializationComplete, hn, hb]
  rfl

theorem exec_wpeTake (hn : s.resetn = false) : exec .wpeTake s = .next s.wipeTaken.grantMemory := by
  rw [show exec .wpeTake s = execWpeTake s from rfl, execWpeTake, hn, s.wpeTake_eq_wipeTaken]
  rfl

theorem exec_refresh (hn : s.resetn = false) (hb : s.bankReady = true) :
    exec .refresh s = .next { s with refreshPending := true } := by
  rw [show exec .refresh s = execRefresh s from rfl, execRefresh, hn, hb]
  rfl

/-- Settles O50: the three rows, and then the engine's case in `State.settle_eq`. -/
theorem bankAndWipeEngineStart : Obligations.BankAndWipeEngineStart := by
  refine ⟨fun s hn => ⟨fun hb => ⟨exec_initializationComplete hn hb, fun e rest hw hl => ?_⟩,
    fun e rest hb hw hl => ?_, exec_refresh hn⟩, fun s => ⟨fun hr => ⟨fun hl => ?_, fun hl hf => ?_,
    fun src tgt rest free h i hl hf hsrc _ => ?_⟩, fun hi hw => ?_⟩⟩
  · obtain ⟨hwpe, hst, hlist⟩ := State.settle_head (s := { s with bankReady := true }) hw rfl hl
    exact ⟨_, exec_initializationComplete hn hb, State.settle_bankReady _, hwpe, hst, hlist,
      State.settle_windows _, State.settle_ports _⟩
  · rw [exec_wpeTake hn, s.wipeTaken_head hw hb hl]
  · rw [s.settle_eq, State.rleSettle_unlisted hr hl]
  · rw [s.settle_eq, State.rleSettle_waits hr hl hf]
  · rw [s.settle_eq, State.rleSettle_starts hr hl hf, State.startRelocation_eq hl hf hsrc]
  · rw [s.settle_eq, State.rleSettle_busy hi hw]

end Starts

end Sys2Proof.Machine
end
section
/-!
Cutover in the rules' own terms (R144, R146): the engine's take of an answer, and the swap.
-/

namespace Sys2Proof.Machine

section Cutover

variable {s : State} {p : Port} {src tgt : Extent} {ptr : Nat} {aw cl bu : PortSet}

/-- The engine asks for the swap once no port is awaited (R144). -/
theorem SwapState.request_eq (x : PortSet) :
    SwapState.request x = if x = PortSet.none then .requested else .notRequested := by
  rw [SwapState.request, PortSet.isEmpty]
  simp only [decide_eq_true_eq]

theorem exec_cutoverAnswer (hn : s.resetn = false) :
    exec (.cutoverAnswer p) s = .next { s with rle := s.rle.takeAnswer p } := by
  rw [show exec (.cutoverAnswer p) s = execCutoverAnswer p s from rfl, execCutoverAnswer, hn]
  rfl

theorem Rle.takeAnswer_clear (hp : cl.has p = true) :
    Rle.takeAnswer (.cutover src tgt ptr aw cl bu .notRequested) p =
      .cutover src tgt ptr (aw.erase p) (cl.erase p) bu
        (if aw.erase p = PortSet.none then .requested else .notRequested) := by
  rw [Rle.takeAnswer, if_pos hp, SwapState.request_eq]

theorem Rle.takeAnswer_busy (hp : cl.has p = false) :
    Rle.takeAnswer (.cutover src tgt ptr aw cl bu .notRequested) p =
      .cutover src tgt ptr aw cl (bu.erase p) .notRequested := by
  rw [Rle.takeAnswer, hp, if_neg Bool.false_ne_true]

theorem State.told_setRle (s : State) (q : Port) (k : Kind) (r : Rle) :
    { s.told q k with rle := r } = State.told { s with rle := r } q k := rfl

/-- The swap in the tables, and what the supervisor is told of it (R30, R146). -/
theorem State.swapExtents_eq (s : State) (src tgt : Extent) (h : Handle) (i : Nat) : s.swapExtents src tgt h i =
    State.told (State.told { s with
      windows := Tab.upd s.windows h.slot fun x => { x with extents := x.extents.set i tgt }
      extents := Tab.upd (Tab.upd s.extents tgt fun x => { x with st := .bound h i, count := 0 }) src
        fun x => { x with st := .quarantined .relocated } } s.supervisor .quarantined) s.supervisor .moved := rfl

theorem exec_swap {h : Handle} {i : Nat} (hn : s.resetn = false)
    (hr : s.rle = .cutover src tgt ptr aw cl bu .requested) (hsrc : (s.entry src).st = .moving h i) :
    exec .swap s = .next { s.swapExtents src tgt h i with
      rle := .cutover src tgt ptr PortSet.none PortSet.none PortSet.none (.taken PortSet.all PortSet.all) } := by
  rw [show exec .swap s = execSwap s from rfl, execSwap, hn, hr]
  dsimp only
  rw [hsrc]

/-- Settles O54: the two answers by `Rle.takeAnswer`, and the swap, whose changes are those of its rule. -/
theorem cutoverSwapsExtents : Obligations.CutoverSwapsExtents := by
  refine fun s src tgt ptr hn => ⟨fun p aw cl bu hr => ⟨fun hclear => ?_, fun hbusy => ?_⟩,
    fun aw cl bu h i hr hsrc _ => ?_⟩
  · rw [exec_cutoverAnswer hn, hr, Rle.takeAnswer_clear hclear]
  · rw [exec_cutoverAnswer hn, hr, Rle.takeAnswer_busy hbusy]
  · rw [exec_swap hn hr hsrc, State.swapExtents_eq, State.told_setRle, State.told_setRle]

end Cutover

end Sys2Proof.Machine
end
section
/-!
The Wipe Engine's blocks in the rules' own terms (R42, R43, R134): the bank under a wipe block and a verify block, and
what becomes of the extent at the end.
-/

namespace Sys2Proof.Machine

section Words

variable {epoch : Nat} {m : Memory}

/-- A wipe block stores zeros with fresh check bits in its words, and in no other (R134). -/
theorem Memory.stored_wipeWords (h : Memory.wf m = true) (a n x : Nat) :
    Memory.stored epoch (Memory.wipeWords m a n) x =
      if a ≤ x ∧ x < a + n then ⟨some 0, 0⟩ else Memory.stored epoch m x := by
  induction n generalizing m a with
  | zero => exact (if_neg (by omega)).symm
  | succ n ih =>
    rw [Memory.wipeWords, ih (Memory.writeWord_wf m a 0 h), Memory.writeWord, Memory.stored_put h]
    by_cases hrest : a + 1 ≤ x ∧ x < a + 1 + n
    · rw [if_pos hrest, if_pos (by omega)]
    · rw [if_neg hrest]
      by_cases hfirst : x = a
      · rw [if_pos hfirst, if_pos (by omega)]
      · rw [if_neg hfirst, if_neg (by omega)]

/-- The words from `a` on, read with the changed bits of `l`; `bad` where one of them was not CLEAN (R134). -/
structure VerifiedWords (epoch : Nat) (m m' : Memory) (bad : Bool) (a : Nat) (l : List Bits39) : Prop where
  words : ∀ i (hi : i < l.length), Memory.stored epoch m' (a + i) = disturbed (Memory.stored epoch m (a + i)) l[i]
  others : ∀ x, (∀ i < l.length, x ≠ a + i) → Memory.stored epoch m' x = Memory.stored epoch m x
  flag : bad = true ↔ ∃ i, ∃ hi : i < l.length, ∀ d,
    outcomeOf (disturbed (Memory.stored epoch m (a + i)) l[i]) ≠ .clean d

theorem isCleanRead_eq_false_iff (o : WordRead) : isCleanRead o = false ↔ ∀ d, o ≠ .clean d := by
  cases o <;> simp [isCleanRead]

/-- A verify block reads its words one after the other (R134). -/
theorem Memory.verifyWords_cons (h : Memory.wf m = true) (a : Nat) (c : Bits39) (cs : List Bits39) :
    Memory.verifyWords epoch m a (c :: cs) =
      ((Memory.verifyWords epoch (Memory.disturb epoch m a c) (a + 1) cs).1,
        !isCleanRead (outcomeOf (disturbed (Memory.stored epoch m a) c)) ||
          (Memory.verifyWords epoch (Memory.disturb epoch m a c) (a + 1) cs).2) := by
  rw [Memory.verifyWords, Memory.readWord, Memory.stored_disturb h, if_pos rfl]

/-- One word is read, and then the rest of the range. -/
theorem VerifiedWords.cons {m' : Memory} {rest : Bool} {a : Nat} {c : Bits39} {cs : List Bits39}
    (h : Memory.wf m = true) (hrest : VerifiedWords epoch (Memory.disturb epoch m a c) m' rest (a + 1) cs) :
    VerifiedWords epoch m m' (!isCleanRead (outcomeOf (disturbed (Memory.stored epoch m a) c)) || rest) a
      (c :: cs) := by
  have hkept : ∀ x, x ≠ a → Memory.stored epoch (Memory.disturb epoch m a c) x = Memory.stored epoch m x :=
    fun x hx => (Memory.stored_disturb h a x c).trans (if_neg hx)
  have hshift : ∀ j, a + (j + 1) = a + 1 + j := by omega
  refine ⟨fun i hi => ?_, fun x hx => ?_, ?_⟩
  · cases i with
    | zero =>
      rw [Nat.add_zero, hrest.others a fun i hi => by omega, Memory.stored_disturb h, if_pos rfl]
      rfl
    | succ j =>
      rw [hshift, hrest.words j (Nat.lt_of_succ_lt_succ hi), hkept _ (by omega)]
      rfl
  · rw [hrest.others x fun i hi => ?_, hkept x (hx 0 (Nat.succ_pos _))]
    have := hx (i + 1) (Nat.succ_lt_succ hi)
    omega
  · rw [Bool.or_eq_true, Bool.not_eq_true', isCleanRead_eq_false_iff, hrest.flag]
    constructor
    · rintro (hbad | ⟨j, hj, hbad⟩)
      · exact ⟨0, Nat.succ_pos _, hbad⟩
      · rw [hkept _ (by omega), ← hshift] at hbad
        exact ⟨j + 1, Nat.succ_lt_succ hj, hbad⟩
    · rintro ⟨i, hi, hbad⟩
      cases i with
      | zero => exact Or.inl hbad
      | succ j =>
        rw [hshift, ← hkept _ (by omega)] at hbad
        exact Or.inr ⟨j, Nat.lt_of_succ_lt_succ hi, hbad⟩

/-- A verify block finds every word as it was before the block, with the bits the bank changed (R134). -/
theorem Memory.verifiedWords_verifyWords (h : Memory.wf m = true) (a : Nat) (l : List Bits39) :
    VerifiedWords epoch m (Memory.verifyWords epoch m a l).1 (Memory.verifyWords epoch m a l).2 a l := by
  induction l generalizing m a with
  | nil => exact ⟨nofun, fun _ _ => rfl, by simp [Memory.verifyWords]⟩
  | cons c cs ih =>
    rw [Memory.verifyWords_cons h]
    exact .cons h (ih (Memory.disturb_wf epoch m a c h) (a + 1))

end Words

section Blocks

variable {s : State} {e : Extent} {b : Nat} {f bad : Bool} {ch : Vector Bits39 16}

theorem exec_wipeBlockComplete (hn : s.resetn = false) (hu : s.unit = some .wipe) (hw : s.wpe = .writing e b) :
    exec .wipeBlockComplete s = .next (State.grantMemory { s with
      mem := Memory.wipeWords s.mem (s.blockAddr e b) 16
      unit := none
      wpe := if b + 1 < s.blocksPerExtent then .writing e (b + 1) else .verifying e 0 false }) := by
  rw [show exec .wipeBlockComplete s = execWipeBlockComplete s from rfl, execWipeBlockComplete, hn, hu, hw]
  rfl

theorem exec_verifyBlockComplete (hn : s.resetn = false) (hu : s.unit = some .verify)
    (hw : s.wpe = .verifying e b f) : exec (.verifyBlockComplete ch) s =
      .next (State.settle (State.afterVerify
        { s with mem := (Memory.verifyWords s.epoch s.mem (s.blockAddr e b) ch.toList).1, unit := none } e b
        (f || (Memory.verifyWords s.epoch s.mem (s.blockAddr e b) ch.toList).2))) := by
  rw [show exec (.verifyBlockComplete ch) s = execVerifyBlockComplete ch s from rfl, execVerifyBlockComplete,
    hn, hu, hw]
  rfl

/-- The words of a block are sixteen from its first on (R23, R178). -/
theorem State.inBlock_iff {x : Nat} :
    s.InBlock e b x ↔ s.blockAddr e b ≤ x ∧ x < s.blockAddr e b + 16 := by
  unfold State.InBlock
  simp only [s.blockWord_eq]
  exact ⟨fun ⟨i, hi, hx⟩ => by omega, fun hx => ⟨x - s.blockAddr e b, by omega, by omega⟩⟩

/-- The Wipe Engine after a verify block, and the extent at the end of its wipe (R30, R37, R43). -/
theorem State.afterVerify_eq (u : State) : u.afterVerify e b bad =
    if b + 1 < u.blocksPerExtent then { u with wpe := .verifying e (b + 1) bad }
    else if bad then
      State.told { u with
        wpe := .idle
        extents := Tab.upd u.extents e fun x => { x with st := .quarantined .verify } }
        u.supervisor .quarantined
    else
      { u with
        wpe := .idle
        extents := Tab.upd u.extents e fun x => { x with st := .free, poisoned := false }
        freeList := u.freeList ++ [e] } := by
  unfold State.afterVerify State.wipeEnd
  cases bad <;> rfl

/-- Settles O52: the bank by the two lemmas on its words, and the engine's record by `State.afterVerify_eq`. -/
theorem wipeEngineWorksBlocks : Obligations.WipeEngineWorksBlocks := by
  refine fun s hn hmem => ⟨fun e b hu hw =>
    ⟨Memory.wipeWords s.mem (s.blockAddr e b) 16, fun i hi => ?_, fun x hx => ?_, ?_⟩,
    fun e b f ch bad hu hw hbad => ?_⟩
  · rw [s.blockWord_eq, Memory.stored_wipeWords hmem, if_pos (by omega)]
  · rw [Memory.stored_wipeWords hmem, if_neg (mt State.inBlock_iff.2 hx)]
    rfl
  · exact exec_wipeBlockComplete hn hu hw
  have hlen : ch.toList.length = 16 := ch.length_toList
  obtain ⟨hwords, hothers, hflag⟩ :=
    Memory.verifiedWords_verifyWords (epoch := s.epoch) hmem (s.blockAddr e b) ch.toList
  have hfailed : (f || (Memory.verifyWords s.epoch s.mem (s.blockAddr e b) ch.toList).2) = bad := by
    rw [Bool.eq_iff_iff, Bool.or_eq_true, hflag, hbad]
    simp only [s.blockWord_eq]
    exact or_congr_right
      ⟨fun ⟨i, hi, h⟩ => ⟨⟨i, hi.trans_eq hlen⟩, h⟩, fun ⟨i, h⟩ => ⟨i, i.isLt.trans_eq hlen.symm, h⟩⟩
  refine ⟨(Memory.verifyWords s.epoch s.mem (s.blockAddr e b) ch.toList).1, _, fun i => ?_, fun x hx => ?_, rfl, ?_⟩
  · rw [s.blockWord_eq]
    exact hwords i (i.isLt.trans_eq hlen.symm)
  · exact hothers x fun i hi he => hx ⟨i, hi.trans_eq hlen, he.trans (s.blockWord_eq e b i).symm⟩
  · rw [exec_verifyBlockComplete hn hu hw, hfailed, State.afterVerify_eq]
    rfl

end Blocks

end Sys2Proof.Machine
end
section
/-!
CLEAR in the rules' own terms (R39, R152, R171 to R173): its drain set, the tables at its take, the end of a drain that
is formed empty, and what follows at once with nothing listed for relocation.
-/

namespace Sys2Proof.Machine

section ClearTables

variable (s : State)

theorem Rle.clearAbandons_iff (r : Rle) : r.clearAbandons = true ↔ r.live ≠ none := by
  cases r with
  | cutover src tgt ptr aw cl bu x => cases x <;> simp [Rle.clearAbandons, Rle.live]
  | idle | waiting | copying | abandoning => simp [Rle.clearAbandons, Rle.live]

/-- A port at CLEAR: the supervisor's is told of an abandoned relocation, every other is emptied (R149, R172). -/
theorem State.port_clearTables (q : Port) : s.clearTables.port q =
    if q = s.supervisor then
      { s.port q with attention := KindSet.addIf s.rle.clearAbandons (s.port q).attention .moved }
    else (s.port q).clear := by
  have hports : Tab.get (Tab.mapAll s.ports fun q u => if q = s.supervisor then u else u.clear) q =
      if q = s.supervisor then s.port q else (s.port q).clear := Tab.get_mapAll _ _ _
  unfold State.clearTables
  cases s.rle.clearAbandons with
  | false =>
    refine hports.trans ?_
    by_cases hq : q = s.supervisor
    · rw [if_pos hq, if_pos hq]
      rfl
    · rw [if_neg hq, if_neg hq]
  | true =>
    refine (State.port_addAttention _ _ _ _).trans ?_
    by_cases hq : q = s.supervisor
    · rw [if_pos hq] at hports
      rw [if_pos hq, if_pos hq]
      exact congrArg (fun u : PortUnit => { u with attention := KindSet.add u.attention .moved }) hports
    · rw [if_neg hq] at hports
      rw [if_neg hq, if_neg hq]
      exact hports

theorem State.entry_clearTables (e : Extent) : s.clearTables.entry e = (s.entry e).clear := by
  unfold State.clearTables
  dsimp only
  split <;> exact Tab.get_mapAll _ _ e

theorem State.abandonHanded_clearTables :
    s.clearTables.abandonHanded = if s.rle.live = none then s.abandonHanded else PortSet.all := by
  have hlive := s.rle.clearAbandons_iff
  unfold State.clearTables
  dsimp only
  split
  · next h => exact (if_neg (hlive.1 h)).symm
  · next h => exact (if_pos (not_not.1 (mt hlive.2 h))).symm

theorem State.kept_clearTables : s.clearTables.kept = s.kept := by
  unfold State.clearTables
  dsimp only
  split <;> rfl

/-- What CLEAR leaves RETIRING, by the extent's state at it (R39). -/
theorem State.clearedExtents_eq :
    s.clearedExtents = (List.finRange 1024).filter fun e => decide ((s.entry e).st.cleared = .retiring) := by
  refine List.filter_congr fun e _ => ?_
  cases (s.entry e).st <;> rfl

theorem State.retiringExtents_clearTables : s.clearTables.retiringExtents = s.clearedExtents := by
  rw [State.retiringExtents, Tab.indices_eq_filter, s.clearedExtents_eq]
  refine List.filter_congr fun e _ => ?_
  have hst : (Tab.get s.clearTables.extents e).st = (s.entry e).st.cleared := s.clearTables_eq.2.2.2.1 e
  rw [hst]

variable {s} {e : Extent}

theorem State.mem_clearedExtents_iff : e ∈ s.clearedExtents ↔ (s.entry e).st.cleared = .retiring := by
  rw [s.clearedExtents_eq, List.mem_filter, decide_eq_true_iff]
  exact and_iff_right (List.mem_finRange e)

/-- An extent at CLEAR (R39). -/
theorem State.clear_entry (s : State) (e : Extent) : (s.entry e).clear =
    if e ∈ s.clearedExtents then { s.entry e with st := .retiring } else s.entry e := by
  rw [Entry.clear]
  simp only [State.mem_clearedExtents_iff]
  obtain ⟨st, n, b⟩ := s.entry e
  cases st <;> simp [ExtState.cleared]

end ClearTables

section ClearDrain

variable {s : State}

theorem Access.record_isSome_iff (x : Access) : x.record.isSome = true ↔ x ≠ .idle := by
  cases x <;> simp [Access.record]

theorem State.pendingPort_iff {q : Port} : s.pendingPort q = true ↔
    (∃ w, (s.window w).drain.ports.has q = true) ∨ ∃ c, s.clearRec = some c ∧ c.drain.ports.has q = true := by
  rw [State.pendingPort, Bool.or_eq_true, List.any_eq_true]
  cases s.clearRec <;> simp

/-- The ports in the drain set of CLEAR (R171, R172). -/
theorem State.has_clearDrain {q : Port} : s.clearDrain.ports.has q = true ↔ s.JoinsClear q := by
  rw [State.clearDrain, PortSet.has_of, Bool.or_eq_true, Access.record_isSome_iff, State.pendingPort_iff]

theorem State.clearDrain_isEmpty_iff : s.clearDrain.isEmpty = true ↔ ¬ s.ClearWaits := by
  rw [DrainSet.isEmpty, Bool.and_eq_true, PortSet.isEmpty_iff, not_or, not_exists]
  refine and_congr (forall_congr' fun q => ?_) (by rw [Bool.not_eq_true', Bool.not_eq_true]; rfl)
  rw [← State.has_clearDrain, Bool.not_eq_true]

theorem State.closedByClear_eq (s : State) :
    s.closedByClear = (List.finRange 128).filter fun w => decide ((s.window w).state ≠ .vacant) :=
  Tab.indices_eq_filter _ _

end ClearDrain

section Unlisted

variable {u : State} {e : Extent}

/-- An engine at rest with nothing listed (R138). -/
def Rle.unlisted : Rle → Rle
  | .waiting => .idle
  | .idle => .idle
  | .copying src tgt ptr => .copying src tgt ptr
  | .cutover src tgt ptr aw cl bu x => .cutover src tgt ptr aw cl bu x
  | .abandoning src tgt ptr b o => .abandoning src tgt ptr b o

theorem State.rleSettle_of_unlisted (hl : u.relocList = []) : u.rleSettle = { u with rle := u.rle.unlisted } := by
  cases hr : u.rle with
  | idle => exact State.rleSettle_unlisted (Or.inl hr) hl
  | waiting => exact State.rleSettle_unlisted (Or.inr hr) hl
  | copying | cutover | abandoning =>
    rw [State.rleSettle_busy (by rw [hr]; nofun) (by rw [hr]; nofun), Rle.unlisted, ← hr]

/-- What follows at once with nothing listed (R29, R41, R138). -/
theorem State.settle_of_unlisted (hl : u.relocList = []) :
    u.settle = State.grantMemory (State.wipeTaken { u with rle := u.rle.unlisted }) := by
  rw [u.settle_eq, State.rleSettle_of_unlisted hl]

/-- The Wipe Engine's take leaves every extent as it is but the head of the Wipe List (R41). -/
theorem State.entry_wipeTaken (u : State) (e : Extent) : u.wipeTaken.entry e = u.entry e ∨
    (e ∈ u.wipeList ∧ u.wipeTaken.entry e = { u.entry e with st := .wiping }) := by
  rw [← u.wpeTake_eq_wipeTaken]
  rcases u.wpeTake_cases with h | ⟨f, rest, -, -, hl, h⟩ <;> rw [h]
  · exact Or.inl rfl
  · rw [hl]
    rcases eq_or_ne e f with rfl | hne
    · exact Or.inr ⟨List.mem_cons_self, u.entry_updExtent_self e _⟩
    · exact Or.inl (u.entry_updExtent_of_ne hne _)

theorem State.entry_settle_unlisted (hl : u.relocList = []) (e : Extent) : u.settle.entry e = u.entry e ∨
    (e ∈ u.wipeList ∧ u.settle.entry e = { u.entry e with st := .wiping }) := by
  rw [State.settle_of_unlisted hl, State.entry_congr (State.grantMemory_extents _)]
  exact State.entry_wipeTaken { u with rle := u.rle.unlisted } e

theorem State.lists_settle_unlisted (hl : u.relocList = []) :
    u.settle.relocList = [] ∧ u.settle.freeList = u.freeList ∧ u.settle.rle = u.rle.unlisted := by
  rw [State.settle_of_unlisted hl, ← State.wpeTake_eq_wipeTaken, State.grantMemory_relocList,
    State.grantMemory_freeList, State.grantMemory_rle, State.wpeTake_relocList, State.wpeTake_freeList,
    State.wpeTake_rle]
  exact ⟨hl, rfl, rfl⟩

/-- The Wipe List after what follows at once (R41). -/
theorem State.wipeListIs_settle {s : State} (hw : u.wpe = s.wpe) (hb : u.bankReady = s.bankReady) :
    WipeListIs s u.settle u.wipeList := by
  unfold WipeListIs
  split
  · next e rest hidle hready hl =>
    obtain ⟨hwpe, hst, hrest⟩ := State.settle_head (hw.trans hidle) (hb.trans hready) hl
    exact ⟨hrest, hwpe, hst⟩
  · next hnone =>
    have hsame : u.rleSettle.wpeTake = u.rleSettle := by
      rcases u.rleSettle.wpeTake_cases with h | ⟨e, rest, hidle, hready, hl, -⟩
      · exact h
      · rw [State.rleSettle_wpe] at hidle
        rw [State.rleSettle_bankReady] at hready
        rw [State.rleSettle_wipeList] at hl
        exact absurd hl (hnone e rest (hw ▸ hidle) (hb ▸ hready))
    rw [State.settle, hsame, State.grantMemory_wipeList, State.grantMemory_wpe, State.rleSettle_wipeList,
      State.rleSettle_wpe]
    exact ⟨rfl, hw⟩

end Unlisted

section Cleared

variable {s v : State} {p : Port} {st : ExtState} {f : Window → Window} {l : List Extent} {r : Rle}

/-- What CLEAR of the supervisor `p` leaves before what follows at once, in both of its cases: `st` is the state of
the extents it takes from their windows, `f` the record of a window that was in use, `l` the Wipe List and `r` the
engine (R39, R152, R172, R173). -/
structure ClearDone (s v : State) (p : Port) (st : ExtState) (f : Window → Window) (l : List Extent) (r : Rle) :
    Prop where
  kept : v.kept = s.kept
  unlisted : v.relocList = []
  free : v.freeList = s.freeList
  wiping : v.wpe = s.wpe
  handed : v.abandonHanded = if s.rle.live = none then s.abandonHanded else PortSet.all
  others : ∀ q, q ≠ p → v.port q = { s.port q with slot := Slot.cleared, attention := 0, fault := none }
  caller : v.port p =
    { s.port p with attention := KindSet.addIf s.rle.clearAbandons (s.port p).attention .moved }
  window : ∀ w, v.window w = if (s.window w).state = .vacant then s.window w else f (s.window w)
  entry : ∀ e, v.entry e = if e ∈ s.clearedExtents then { s.entry e with st := st } else s.entry e
  wipeList : v.wipeList = l
  engine : v.rle = r

/-- The record of a window under CLEAR (R171, R172). -/
def Window.drainingUnderClear (x : Window) : Window :=
  { state := .draining, gen := x.gen, owner := x.owner, extents := [], closedLen := 0,
    grants := Vector.replicate 6 .vacant, drain := DrainSet.empty, retiring := [] }

theorem Window.clear_eq (x : Window) : x.clear = if x.state = .vacant then x else x.drainingUnderClear := by
  unfold Window.clear
  cases hx : x.state <;> simp [Window.drainingUnderClear]

/-- The part at the take of CLEAR, its drain recorded (R171, R172). -/
def State.clearRecorded (s : State) (live : Bool) : State :=
  { s.clearTables with clearRec := some (s.clearRecord live) }

/-- The tables and the record of CLEAR's drain at its take (R39, R152, R171, R172). -/
theorem State.clearDone_recorded (hp : p = s.supervisor) (live : Bool) :
    ClearDone s (s.clearRecorded live) p .retiring Window.drainingUnderClear s.wipeList
      s.rle.clear := by
  obtain ⟨-, -, hwindow, -, hfree, hwipe, hreloc, hwpe, hrle⟩ := s.clearTables_eq
  refine ⟨s.kept_clearTables, hreloc, hfree, hwpe, s.abandonHanded_clearTables, fun q hq => ?_, ?_, fun w => ?_,
    fun e => ?_, hwipe, hrle⟩
  · exact (s.port_clearTables q).trans (if_neg (hp ▸ hq))
  · exact (s.port_clearTables p).trans (if_pos hp)
  · exact (hwindow w).trans (Window.clear_eq _)
  · exact (s.entry_clearTables e).trans (s.clear_entry e)

/-- The engine at the end of a drain of CLEAR that is formed empty: no block is in copy (R152, R173). -/
theorem Rle.restedFrom_clear (h : s.rle.hasBlock = false) :
    (s.rle.clear.restedFrom .clear).unlisted = s.rle.afterClear := by
  cases hr : s.rle with
  | copying => rw [hr] at h; cases h
  | cutover src tgt ptr aw cl bu x => cases x <;> rfl
  | idle | waiting | abandoning => rfl

/-- A drain of CLEAR that is formed empty ends at the take (R173). -/
theorem State.clearDone_ended (hp : p = s.supervisor) :
    ClearDone s (s.clearRecorded false).endClearDrain p .dirty
      (fun x => Window.vacantAt (x.gen + 1)) (s.wipeList ++ s.clearedExtents) (s.rle.clear.restedFrom .clear) := by
  have hdone := State.clearDone_recorded hp false
  obtain ⟨-, hwindow, hentry, hwipe, hrle, hport⟩ :=
    State.endClearDrain_eq (s.clearRecorded false) rfl
  have hretiring : (s.clearRecord false).retiring = s.clearedExtents := s.retiringExtents_clearTables
  have hsame : ∀ q, _ = _ := fun q => (hport q).trans (if_neg fun h => Bool.false_ne_true h.1)
  refine ⟨(State.kept_endClearDrain _).trans hdone.kept, (State.endClearDrain_relocList _).trans hdone.unlisted,
    (State.endClearDrain_freeList _).trans hdone.free, (State.endClearDrain_wpe _).trans hdone.wiping,
    (State.endClearDrain_abandonHanded _).trans hdone.handed, fun q hq => (hsame q).trans (hdone.others q hq),
    (hsame p).trans hdone.caller, fun w => ?_, fun e => ?_, ?_, ?_⟩
  · rw [hwindow, hdone.window]
    have hclosed : w ∈ (s.clearRecord false).closed ↔ (s.window w).state ≠ .vacant := s.mem_closedByClear w
    by_cases hw : (s.window w).state = .vacant
    · rw [if_neg fun h => hclosed.1 h hw, if_pos hw, if_pos hw]
    · rw [if_pos (hclosed.2 hw), if_neg hw, if_neg hw]
      rfl
  · rw [hentry, hretiring, hdone.entry]
    split <;> rfl
  · rw [hwipe, hretiring]
    exact congrArg (· ++ s.clearedExtents) hdone.wipeList
  · rw [hrle, State.restIf_eq]
    exact congrArg (Rle.restedFrom · .clear) hdone.engine

/-- Only the caller's slot and attention set change after what follows at once. -/
def ClearAnswered (v t : State) (p : Port) : Prop :=
  ∃ g : PortUnit → PortUnit, t = v.settle.updPort p g ∧
    ∀ x, g x = { x with attention := (g x).attention, slot := (g x).slot }

variable {t : State}

theorem ClearAnswered.others (h : ClearAnswered v t p) {q : Port} (hq : q ≠ p) : t.port q = v.port q := by
  obtain ⟨g, rfl, -⟩ := h
  rw [State.port_updPort_of_ne _ hq, State.port_congr v.settle_ports]

theorem ClearAnswered.caller (h : ClearAnswered v t p) :
    t.port p = { v.port p with attention := (t.port p).attention, slot := (t.port p).slot } := by
  obtain ⟨g, rfl, hg⟩ := h
  rw [State.port_updPort_self, State.port_congr v.settle_ports]
  exact hg _

theorem ClearAnswered.kept (h : ClearAnswered v t p) : t.kept = v.kept := by
  obtain ⟨g, rfl, -⟩ := h
  rw [State.kept_updPort, State.kept_settle]

theorem ClearAnswered.window (h : ClearAnswered v t p) (w : WSlot) : t.window w = v.window w := by
  obtain ⟨g, rfl, -⟩ := h
  exact State.window_congr v.settle_windows w

/-- The count and the mark of an extent stay (R39). -/
theorem ClearDone.entry_kept (hd : ClearDone s v p st f l r) (ha : ClearAnswered v t p) (e : Extent) :
    (t.entry e).count = (s.entry e).count ∧ (t.entry e).poisoned = (s.entry e).poisoned := by
  obtain ⟨g, rfl, -⟩ := ha
  have hcount := v.settle_count e
  rw [hd.entry] at hcount
  refine ⟨hcount.1.trans ?_, hcount.2.trans ?_⟩ <;> split <;> rfl

/-- Outside the Wipe List an extent is as CLEAR leaves it; the Wipe Engine takes none but its head (R41). -/
theorem ClearDone.entry_of_notMem (hd : ClearDone s v p st f l r) (ha : ClearAnswered v t p) {e : Extent}
    (he : e ∉ l) : t.entry e = v.entry e := by
  obtain ⟨g, rfl, -⟩ := ha
  rcases State.entry_settle_unlisted hd.unlisted e with h | ⟨hmem, -⟩
  · exact h
  · exact absurd (hd.wipeList ▸ hmem) he

/-- An extent that CLEAR takes from its window, or that waited for a drain (R39, R41). -/
theorem ClearDone.st_of_mem (hd : ClearDone s v p st f l r) (ha : ClearAnswered v t p) {e : Extent}
    (he : e ∈ s.clearedExtents) : (t.entry e).st = st ∨ (t.entry e).st = .wiping := by
  obtain ⟨g, rfl, -⟩ := ha
  have hst : (v.entry e).st = st := by rw [hd.entry, if_pos he]
  rcases State.entry_settle_unlisted hd.unlisted e with h | ⟨-, h⟩
  · exact Or.inl ((congrArg Entry.st h).trans hst)
  · exact Or.inr (congrArg Entry.st h)

theorem ClearDone.wipeListIs (hd : ClearDone s v p st f l r) (ha : ClearAnswered v t p) : WipeListIs s t l := by
  obtain ⟨g, rfl, -⟩ := ha
  have hready : v.bankReady = s.bankReady := congrArg Kept.bankReady hd.kept
  have h := State.wipeListIs_settle hd.wiping hready
  rw [hd.wipeList] at h
  exact h

theorem ClearDone.rle (hd : ClearDone s v p st f l r) (ha : ClearAnswered v t p) : t.rle = r.unlisted := by
  obtain ⟨g, rfl, -⟩ := ha
  exact (State.lists_settle_unlisted hd.unlisted).2.2.trans (congrArg Rle.unlisted hd.engine)

/-- A finish with OK changes the caller's slot and attention set (R68). -/
theorem State.clearAnswered_finish (v : State) (p : Port) (res : Words4) :
    ClearAnswered v (v.settle.finish p .ok res) p :=
  ⟨_, v.settle.updPort_updPort _ _, fun _ => rfl⟩

/-- So does a command that goes on (R69). -/
theorem State.clearAnswered_slotInProgress (v : State) (p : Port) :
    ClearAnswered v (v.settle.slotInProgress p) p :=
  ⟨_, rfl, fun _ => rfl⟩

/-- What the supervisor is told by CLEAR itself (R149). -/
theorem ClearDone.has_caller (hd : ClearDone s v p st f l r) (k : Kind) :
    KindSet.has (v.port p).attention k = true ↔
      KindSet.has (s.port p).attention k = true ∨ (k = .moved ∧ s.rle.live ≠ none) := by
  rw [hd.caller, KindSet.has_addIf, Bool.or_eq_true, Bool.and_eq_true, Rle.clearAbandons_iff, decide_eq_true_iff,
    and_comm]

theorem clearVerdict_waits (h : s.ClearWaits) : clearVerdict s =
    .inProgress (s.clearRecorded true).settle :=
  if_neg (mt State.clearDrain_isEmpty_iff.1 (not_not.2 h))

theorem clearVerdict_ends (h : ¬ s.ClearWaits) : clearVerdict s =
    .finished (s.clearRecorded false).endClearDrain.settle
      (Words4.one (numWord s.clearedExtents.length)) := by
  rw [clearVerdict, if_pos (State.clearDrain_isEmpty_iff.2 h), s.retiringExtents_clearTables]
  rfl

theorem Rle.unlisted_clear (r : Rle) : r.clear.unlisted = r.underClear := by
  cases r with
  | cutover src tgt ptr aw cl bu x => cases x <;> rfl
  | idle | waiting | copying | abandoning => rfl

end Cleared

section Settled

variable {s v t : State} {p : Port} {st : ExtState} {f : Window → Window} {l : List Extent} {r : Rle}

/-- What CLEAR leaves whether or not its drain set has a member. -/
def ClearCommon (s t : State) (p : Port) : Prop :=
  t.kept = (s.served p).kept ∧ t.relocList = [] ∧ t.freeList = s.freeList ∧
    (∀ q, q ≠ p → t.port q = { s.port q with slot := Slot.cleared, attention := 0, fault := none }) ∧
    t.port p = { s.port p with attention := (t.port p).attention, slot := (t.port p).slot } ∧
    (∀ e, (t.entry e).count = (s.entry e).count ∧ (t.entry e).poisoned = (s.entry e).poisoned) ∧
    (∀ e, e ∉ s.clearedExtents → e ∉ s.wipeList → t.entry e = s.entry e) ∧
    (∀ w, (s.window w).state = .vacant → t.window w = s.window w) ∧
    t.abandonHanded = (if s.rle.live = none then s.abandonHanded else PortSet.all)

theorem ClearDone.common (hd : ClearDone (s.served p) v p st f l r) (ha : ClearAnswered v t p)
    (hl : ∀ e ∈ l, e ∈ s.wipeList ∨ e ∈ s.clearedExtents) : ClearCommon s t p := by
  refine ⟨ha.kept.trans hd.kept, ?_, ?_, fun q hq => (ha.others hq).trans (hd.others q hq), ?_, hd.entry_kept ha,
    fun e hcleared hwipe => ?_, fun w hw => ?_, ?_⟩
  · obtain ⟨g, rfl, -⟩ := ha
    exact (State.lists_settle_unlisted hd.unlisted).1
  · obtain ⟨g, rfl, -⟩ := ha
    exact (State.lists_settle_unlisted hd.unlisted).2.1.trans hd.free
  · have hcaller := ha.caller
    rw [hd.caller] at hcaller
    exact hcaller
  · rw [hd.entry_of_notMem ha fun he => (hl e he).elim hwipe hcleared, hd.entry]
    exact if_neg hcleared
  · rw [ha.window, hd.window]
    exact if_pos hw
  · obtain ⟨g, rfl, -⟩ := ha
    exact v.settle_abandonHanded.trans hd.handed

/-- Settles O45: both cases of the verdict, each by what CLEAR leaves before what follows at once. -/
theorem clearEndsEveryWindow : Obligations.ClearEndsEveryWindow := by
  intro s p hp hdue
  have hexec : exec (.clear p) s = s.answerOf p (clearVerdict (s.served p)) := exec_of_supervisor hp rfl rfl hdue
  have hport : p = (s.served p).supervisor := hp
  by_cases hwaits : s.ClearWaits
  · have hd := State.clearDone_recorded hport true
    have ha := State.clearAnswered_slotInProgress ((s.served p).clearRecorded true) p
    obtain ⟨hkept, hreloc, hfree, hothers, hcaller, hcount, hentry, hvacant, hhanded⟩ :=
      hd.common ha fun e he => Or.inl he
    rw [clearVerdict_waits (s := s.served p) hwaits] at hexec
    refine ⟨_, hexec, hkept, hreloc, hfree, hothers, hcaller, hcount, hentry, hvacant, hhanded,
      fun _ => ⟨?_, fun k => ?_, fun w hw => ?_, ⟨(s.served p).clearRecord true, ?_, rfl,
        (s.served p).retiringExtents_clearTables, (s.served p).closedByClear_eq, rfl,
        fun q => State.has_clearDrain⟩, fun e he hwipe => ?_,
        hd.wipeListIs ha, ?_⟩, fun hends => absurd hwaits hends⟩
    · rw [State.slotInProgress, State.port_updPort_self, State.port_congr (State.settle_ports _), hd.caller]
      rfl
    · rw [State.slotInProgress, State.port_updPort_self, State.port_congr (State.settle_ports _)]
      exact hd.has_caller k
    · rw [ha.window, hd.window]
      exact if_neg hw
    · exact State.settle_clearRec _
    · rw [hd.entry_of_notMem ha hwipe, hd.entry, if_pos (show e ∈ (s.served p).clearedExtents from he)]
    · rw [hd.rle ha]
      exact Rle.unlisted_clear _
  · have hd := State.clearDone_ended hport
    have ha := State.clearAnswered_finish ((s.served p).clearRecorded false).endClearDrain p
      (Words4.one (numWord (s.served p).clearedExtents.length))
    obtain ⟨hkept, hreloc, hfree, hothers, hcaller, hcount, hentry, hvacant, hhanded⟩ :=
      hd.common ha fun e he => List.mem_append.1 he
    rw [clearVerdict_ends (s := s.served p) hwaits] at hexec
    refine ⟨_, hexec, hkept, hreloc, hfree, hothers, hcaller, hcount, hentry, hvacant, hhanded,
      fun h => absurd h hwaits, fun _ => ⟨?_, fun k => ?_, fun w hw => ?_, ?_, fun e he => ?_,
        hd.wipeListIs ha, ?_⟩⟩
    · rw [FinishedOk, State.port_finish, if_pos rfl, State.port_congr (State.settle_ports _), hd.caller]
      rfl
    · rw [State.port_finish, if_pos rfl, State.port_congr (State.settle_ports _), KindSet.has_add, Bool.or_eq_true,
        hd.has_caller, decide_eq_true_iff, or_assoc, or_comm (b := k = .done)]
      rfl
    · rw [ha.window, hd.window]
      exact if_neg hw
    · exact (State.settle_clearRec _).trans (State.endClearDrain_eq _ rfl).1
    · exact hd.st_of_mem ha he
    · rw [hd.rle ha]
      exact Rle.restedFrom_clear (Bool.eq_false_of_not_eq_true fun hblock => hwaits (Or.inr hblock))

end Settled

end Sys2Proof.Machine
end
section
/-!
A member's leaving of the drain that its work kept open, and the end of a hold wait, record by record (R22, R93, R94,
R161, R171, R173): what the ports, the windows and CLEAR's record are after it.
-/

namespace Sys2Proof.Machine

section MembersLeaving

variable (s : State) (w : WSlot) (m : Member)

/-- The leaving of a member changes at most what a port is told, and the supervisor's slot: by the end of the window's
drain, by the end of CLEAR's with its command, or not at all (R94, R173). -/
theorem State.leave_ports_cases :
    (¬ s.DrainEnds w m ∧ (∀ n, ¬ s.ClearFinishes w m n) ∧ ∀ q, (s.leave w m).port q = s.port q) ∨
    (s.DrainEnds w m ∧ (∀ n, ¬ s.ClearFinishes w m n) ∧ ∀ q, (s.leave w m).port q =
      if (s.window w).owner = some q then
        { s.port q with attention := KindSet.add (s.port q).attention .drained }
      else s.port q) ∨
    (¬ s.DrainEnds w m ∧ ∃ n, s.ClearFinishes w m n ∧ ∀ q, (s.leave w m).port q =
      if q = s.supervisor then
        { s.port q with
          slot := { (s.port q).slot with state := .done .ok, res := ⟨BitVec.ofNat 32 n, 0, 0, 0⟩ }
          attention := KindSet.add (s.port q).attention .done }
      else s.port q) := by
  cases hu : s.underClear w with
  | false =>
    have hfinish : ∀ n, ¬ s.ClearFinishes w m n := fun n ⟨c, hc, hw, _⟩ =>
      Bool.false_ne_true (hu.symm.trans ((s.underClear_iff w).2 ⟨c, hc, hw⟩))
    rw [State.leave_window s m hu]
    by_cases hm : (s.window w).drain.has m = true
    · by_cases hlast : (s.window w).drain.remove m = DrainSet.empty
      · refine Or.inr (Or.inl ⟨⟨hu, hm, hlast⟩, hfinish, fun q => ?_⟩)
        rw [State.leaveWindow_ends s hm hlast, State.port_endDrain, State.window_updWindow_self]
        rfl
      · refine Or.inl ⟨fun h => hlast h.2.2, hfinish, fun q => ?_⟩
        rw [State.leaveWindow_stays s hm hlast]
        rfl
    · refine Or.inl ⟨fun h => hm h.2.1, hfinish, fun q => ?_⟩
      rw [State.leaveWindow_absent s (Bool.eq_false_of_not_eq_true hm)]
  | true =>
    have hdrain : ¬ s.DrainEnds w m := fun h => Bool.false_ne_true (h.1.symm.trans hu)
    obtain ⟨c, hc, hw⟩ := (s.underClear_iff w).1 hu
    rw [State.leave_clear s m hc hw]
    have hsame : ∀ n, s.ClearFinishes w m n →
        c.slotLive = true ∧ c.drain.has m = true ∧ c.drain.remove m = DrainSet.empty := by
      rintro n ⟨d, hd, -, hlive, hm, hlast, -⟩
      cases hc.symm.trans hd
      exact ⟨hlive, hm, hlast⟩
    by_cases hm : c.drain.has m = true
    · by_cases hlast : c.drain.remove m = DrainSet.empty
      · have hport := (State.endClearDrain_eq
          { s with clearRec := some { c with drain := c.drain.remove m } } rfl).2.2.2.2.2
        rw [State.leaveClear_ends s hc hm hlast]
        by_cases hlive : c.slotLive = true
        · refine Or.inr (Or.inr ⟨hdrain, c.retiring.length, ⟨c, hc, hw, hlive, hm, hlast, rfl⟩, fun q => ?_⟩)
          refine (hport q).trans ?_
          by_cases hq : q = s.supervisor
          · rw [if_pos hq, if_pos ⟨hlive, hq⟩]
            rfl
          · rw [if_neg hq, if_neg fun h => hq h.2]
            rfl
        · exact Or.inl ⟨hdrain, fun n hn => hlive (hsame n hn).1,
            fun q => (hport q).trans (if_neg fun h => hlive h.1)⟩
      · refine Or.inl ⟨hdrain, fun n hn => hlast (hsame n hn).2.2, fun q => ?_⟩
        rw [State.leaveClear_stays s hc hm hlast]
        rfl
    · refine Or.inl ⟨hdrain, fun n hn => hm (hsame n hn).2.1, fun q => ?_⟩
      rw [State.leaveClear_absent s hc (Bool.eq_false_of_not_eq_true hm)]

/-- A port's record after a member has left a drain (R94, R173). -/
theorem State.port_leave (q : Port) : (s.leave w m).port q =
    { s.port q with attention := ((s.leave w m).port q).attention, slot := ((s.leave w m).port q).slot } := by
  obtain ⟨-, -, h⟩ | ⟨-, -, h⟩ | ⟨-, n, -, h⟩ := s.leave_ports_cases w m
  all_goals rw [h]
  all_goals split <;> rfl

theorem State.slot_leave_of_ne {q : Port} (hq : q ≠ s.supervisor) :
    ((s.leave w m).port q).slot = (s.port q).slot := by
  obtain ⟨-, -, h⟩ | ⟨-, -, h⟩ | ⟨-, n, -, h⟩ := s.leave_ports_cases w m
  · rw [h]
  · rw [h]
    split <;> rfl
  · rw [h, if_neg hq]

/-- The end of CLEAR's drain finishes the command that waits for it (R173). -/
theorem State.slot_leave_of_finishes {n : Nat} (hn : s.ClearFinishes w m n) :
    ((s.leave w m).port s.supervisor).slot =
      { (s.port s.supervisor).slot with state := .done .ok, res := ⟨BitVec.ofNat 32 n, 0, 0, 0⟩ } := by
  obtain ⟨-, hnone, -⟩ | ⟨-, hnone, -⟩ | ⟨-, n', hn', h⟩ := s.leave_ports_cases w m
  · exact absurd hn (hnone n)
  · exact absurd hn (hnone n)
  · obtain ⟨c, hc, -, -, -, -, rfl⟩ := hn
    obtain ⟨d, hd, -, -, -, -, rfl⟩ := hn'
    cases hc.symm.trans hd
    rw [h, if_pos rfl]

theorem State.slot_leave_of_not_finishes (hnone : ∀ n, ¬ s.ClearFinishes w m n) (q : Port) :
    ((s.leave w m).port q).slot = (s.port q).slot := by
  obtain ⟨-, -, h⟩ | ⟨-, -, h⟩ | ⟨-, n, hn, -⟩ := s.leave_ports_cases w m
  · rw [h]
  · rw [h]
    split <;> rfl
  · exact absurd hn (hnone n)

/-- What the ports are told when a member leaves a drain (R94, R173). -/
theorem State.adds_leave : Adds s (s.leave w m) fun q k =>
    (k = .drained ∧ (s.window w).owner = some q ∧ s.DrainEnds w m) ∨
    (q = s.supervisor ∧ k = .done ∧ ∃ n, s.ClearFinishes w m n) := by
  intro q k
  obtain ⟨hd, hf, h⟩ | ⟨hd, hf, h⟩ | ⟨hd, n, hn, h⟩ := s.leave_ports_cases w m
  · rw [h]
    simp only [eq_false hd, eq_false (hf _), exists_const, and_false, or_false]
  · rw [h]
    simp only [eq_true hd, eq_false (hf _), exists_const, and_false, and_true, or_false]
    split
    · next howner => simp [KindSet.has_add, howner]
    · next howner => simp [howner]
  · have hsome : ∃ n, s.ClearFinishes w m n := ⟨n, hn⟩
    rw [h]
    simp only [eq_false hd, eq_true hsome, and_false, and_true, false_or]
    split
    · next hq => simp [KindSet.has_add, hq]
    · next hq => simp [hq]

/-- Windows and CLEAR's record when a member has left its drain, before what follows at once. -/
theorem State.memberLeft_leave : MemberLeft s (s.leave w m) w m := by
  refine ⟨fun hu => ?_, fun c hc hw => ?_⟩
  · rw [State.leave_window s m hu]
    refine ⟨State.leaveWindow_clearRec s w m, fun v hv => ?_, fun hm => ?_, fun hm => ⟨fun hmore => ?_,
      fun hlast => ⟨?_, fun e he => Or.inl ?_⟩⟩⟩
    · by_cases hm : (s.window w).drain.has m = true
      · by_cases hlast : (s.window w).drain.remove m = DrainSet.empty
        · rw [State.leaveWindow_ends s hm hlast, State.window_endDrain, if_neg hv, State.window_updWindow_of_ne s hv]
        · rw [State.leaveWindow_stays s hm hlast, State.window_updWindow_of_ne s hv]
      · rw [State.leaveWindow_absent s (Bool.eq_false_of_not_eq_true hm)]
    · rw [State.leaveWindow_absent s hm]
    · rw [State.leaveWindow_stays s hm hmore, State.window_updWindow_self]
    · rw [State.leaveWindow_ends s hm hlast, State.window_endDrain, if_pos rfl, State.window_updWindow_self,
        Window.afterDrain_eq_ended, Window.ended_setDrain]
    · rw [State.leaveWindow_ends s hm hlast, State.wipeList_endDrain, State.window_updWindow_self]
      exact List.mem_append_right _ he
  · rw [State.leave_clear s m hc hw]
    refine ⟨fun hm => ?_, fun hm => ⟨fun hmore => ?_, fun hlast => ?_⟩⟩
    · rw [State.leaveClear_absent s hc hm]
      exact ⟨hc, rfl⟩
    · rw [State.leaveClear_stays s hc hm hmore]
      exact ⟨rfl, rfl⟩
    · rw [State.leaveClear_ends s hc hm hlast]
      obtain ⟨hrec, hwindow, -, hwipe, -⟩ :=
        State.endClearDrain_eq { s with clearRec := some { c with drain := c.drain.remove m } } rfl
      refine ⟨hrec, fun e he => Or.inl ?_, hwindow⟩
      rw [hwipe]
      exact List.mem_append_right _ he

/-- The count and the mark of an extent do not change with a drain (R38, R39). -/
theorem State.count_leave (e : Extent) : ((s.leave w m).entry e).count = (s.entry e).count ∧
    ((s.leave w m).entry e).poisoned = (s.entry e).poisoned := by
  cases hu : s.underClear w with
  | false =>
    rw [State.leave_window s m hu]
    by_cases hm : (s.window w).drain.has m = true
    · by_cases hlast : (s.window w).drain.remove m = DrainSet.empty
      · rw [State.leaveWindow_ends s hm hlast, State.entry_endDrain]
        split <;> exact ⟨rfl, rfl⟩
      · rw [State.leaveWindow_stays s hm hlast]
        exact ⟨rfl, rfl⟩
    · rw [State.leaveWindow_absent s (Bool.eq_false_of_not_eq_true hm)]
      exact ⟨rfl, rfl⟩
  | true =>
    obtain ⟨c, hc, hw⟩ := (s.underClear_iff w).1 hu
    rw [State.leave_clear s m hc hw]
    by_cases hm : c.drain.has m = true
    · by_cases hlast : c.drain.remove m = DrainSet.empty
      · rw [State.leaveClear_ends s hc hm hlast, (State.endClearDrain_eq _ rfl).2.2.1]
        split <;> exact ⟨rfl, rfl⟩
      · rw [State.leaveClear_stays s hc hm hlast]
        exact ⟨rfl, rfl⟩
    · rw [State.leaveClear_absent s hc (Bool.eq_false_of_not_eq_true hm)]
      exact ⟨rfl, rfl⟩

variable {s}

/-- Only an engine that is ABANDONING comes to rest with a drain (R151, R173). -/
theorem State.rle_leave_of_not_abandoning (h : ∀ a b c d o, s.rle ≠ .abandoning a b c d o) :
    (s.leave w m).rle = s.rle := by
  cases hu : s.underClear w with
  | false =>
    rw [State.leave_window s m hu]
    by_cases hm : (s.window w).drain.has m = true
    · by_cases hlast : (s.window w).drain.remove m = DrainSet.empty
      · rw [State.leaveWindow_ends s hm hlast, State.rle_endDrain, State.restIf_rle_of]
        · rfl
        · exact fun a b c d => h a b c d _
      · rw [State.leaveWindow_stays s hm hlast]
        rfl
    · rw [State.leaveWindow_absent s (Bool.eq_false_of_not_eq_true hm)]
  | true =>
    obtain ⟨c, hc, hw⟩ := (s.underClear_iff w).1 hu
    rw [State.leave_clear s m hc hw]
    by_cases hm : c.drain.has m = true
    · by_cases hlast : c.drain.remove m = DrainSet.empty
      · rw [State.leaveClear_ends s hc hm hlast, (State.endClearDrain_eq _ rfl).2.2.2.2.1, State.restIf_rle_of]
        exact fun a b c d => h a b c d _
      · rw [State.leaveClear_stays s hc hm hlast]
    · rw [State.leaveClear_absent s hc (Bool.eq_false_of_not_eq_true hm)]

/-- The statement about windows and CLEAR's record carries over what follows. -/
theorem MemberLeft.mono {v t : State} (h : MemberLeft s v w m) (hwindows : t.windows = v.windows)
    (hrec : t.clearRec = v.clearRec) (hwiped : ∀ l, Wiped v l → Wiped t l) : MemberLeft s t w m := by
  have hwin : ∀ x, t.window x = v.window x := State.window_congr hwindows
  unfold MemberLeft at h ⊢
  simp only [hwindows, hrec, hwin]
  obtain ⟨hown, hclear⟩ := h
  refine ⟨fun hu => ?_, fun c hc hw => ?_⟩
  · obtain ⟨h1, h2, h3, h4⟩ := hown hu
    exact ⟨h1, h2, h3, fun hm => ⟨(h4 hm).1, fun hlast => ((h4 hm).2 hlast).imp_right (hwiped _)⟩⟩
  · obtain ⟨h1, h2⟩ := hclear c hc hw
    exact ⟨h1, fun hm => ⟨(h2 hm).1, fun hlast =>
      ((h2 hm).2 hlast).imp_right fun hrest => hrest.imp_left (hwiped _)⟩⟩

end MembersLeaving

section HoldWaits

variable (s : State) (p q : Port)

/-- A port's record after the end of a hold wait (R161). -/
theorem State.port_endHoldWait_frame : (s.endHoldWait p).port q =
    { s.port q with
      holdWait := if q = p then .absent else (s.port q).holdWait
      attention := ((s.endHoldWait p).port q).attention
      slot := ((s.endHoldWait p).port q).slot } := by
  rw [State.port_endHoldWait]
  cases hwait : (s.port p).holdWait with
  | absent =>
    dsimp only
    by_cases hq : q = p
    · rw [if_pos hq, hq, ← hwait]
    · rw [if_neg hq]
  | present live =>
    dsimp only
    by_cases hq : q = p
    · simp only [if_pos hq]
      split <;> rfl
    · simp only [if_neg hq]
      split <;> rfl

theorem State.slot_endHoldWait : ((s.endHoldWait p).port q).slot =
    if (s.port p).holdWait = .present true ∧ q = s.supervisor then
      { (s.port q).slot with state := .done .ok, res := Words4.zero }
    else (s.port q).slot := by
  rw [State.port_endHoldWait]
  cases (s.port p).holdWait with
  | absent => exact (if_neg (by simp)).symm
  | present live =>
    have hslot : (if q = p then { s.port q with holdWait := .absent } else s.port q).slot = (s.port q).slot := by
      split <;> rfl
    dsimp only
    cases live with
    | false => simpa using hslot
    | true =>
      by_cases hq : q = s.supervisor
      · rw [if_pos (show q = s.supervisor ∧ true = true from ⟨hq, rfl⟩),
          if_pos (show HoldWait.present true = .present true ∧ q = s.supervisor from ⟨rfl, hq⟩)]
        exact congrArg (fun x : Slot => { x with state := .done .ok, res := Words4.zero }) hslot
      · rw [if_neg (show ¬ (q = s.supervisor ∧ true = true) from fun h => hq h.1),
          if_neg (show ¬ (HoldWait.present true = .present true ∧ q = s.supervisor) from fun h => hq h.2), hslot]

theorem State.adds_endHoldWait : Adds s (s.endHoldWait p) fun q k =>
    q = s.supervisor ∧ k = .done ∧ (s.port p).holdWait = .present true := by
  intro q k
  rw [State.port_endHoldWait]
  cases hwait : (s.port p).holdWait with
  | absent => simp
  | present live =>
    have hattention :
        (if q = p then { s.port q with holdWait := .absent } else s.port q).attention = (s.port q).attention := by
      split <;> rfl
    dsimp only
    split
    · next h =>
      obtain ⟨hq, rfl⟩ := h
      rw [KindSet.has_add, hattention, Bool.or_eq_true, decide_eq_true_iff]
      simp [hq]
    · next h =>
      rw [hattention]
      cases live with
      | false => simp
      | true =>
        have hq : q ≠ s.supervisor := fun hq => h ⟨hq, rfl⟩
        simp [hq]

end HoldWaits

end Sys2Proof.Machine
end
section
/-!
The check-bit unit's table and the bank under an access (R56, R57, R127 to R132).
-/

namespace Sys2Proof.Machine

section CheckBits

variable {w : StoredWord}

/-- A pattern with no bit set is zero. -/
theorem eq_zero_of_bitCount {x : Bits39} (h : bitCount x = 0) : x = 0 := by
  rw [bitCount, List.countP_eq_zero] at h
  refine BitVec.eq_of_getLsbD_eq fun i hi => ?_
  rw [Bool.eq_false_of_not_eq_true (h i (List.mem_range.2 hi))]
  exact BitVec.getLsbD_zero.symm

/-- The poison mark read with two errors is at least one bit from every valid word, and that with one bit is read
(R127, R128; log 8). -/
theorem readsAs_poison_two_wrong (hw : w.content = none) (h : bitCount w.errors = 2) :
    ReadsAs (dqBits w) (outcomeOf w) := by
  have hpoison : distance (dqBits w) poisonMark = 2 := by
    rw [← h, ← distance_dqBits, hw]
    rfl
  rw [outcomeOf_two_wrong h, hw]
  dsimp only
  cases hnear : nearValid (dqBits w) with
  | some d => exact (nearValid_eq_some _ d).1 hnear
  | none =>
    refine ⟨fun d => ?_, hpoison.ge⟩
    have hapart : 3 ≤ distance (validWord d) poisonMark := partCode.poisonApart d
    have hne : distance (dqBits w) (validWord d) ≠ 1 := fun hone => by
      rw [(nearValid_eq_some _ d).2 hone] at hnear
      cases hnear
    have htri := distance_triangle (validWord d) (dqBits w) poisonMark
    rw [distance_comm (validWord d) (dqBits w)] at htri
    omega

/-- A valid word read with two errors is at least two bits from every valid word (R127, R128). -/
theorem readsAs_valid_two_wrong {d : Word} (hw : w.content = some d) (h : bitCount w.errors = 2) :
    ReadsAs (dqBits w) (outcomeOf w) := by
  have hvalid : distance (dqBits w) (validWord d) = 2 := by
    rw [← h, ← distance_dqBits, hw]
    rfl
  rw [outcomeOf_two_wrong h, hw]
  dsimp only
  split
  · next hpoison => exact hpoison
  · next hpoison =>
    refine ⟨fun e => ?_, by omega⟩
    by_cases he : d = e
    · exact he ▸ hvalid.ge
    · have hapart : 4 ≤ distance (validWord d) (validWord e) := partCode.apart d e he
      have htri := distance_triangle (validWord d) (dqBits w) (validWord e)
      rw [distance_comm (validWord d) (dqBits w)] at htri
      omega

/-- The outcome of a word with two errors or fewer is the row of R128's table in which its bits stand. -/
theorem readsAs_outcomeOf (h : bitCount w.errors ≤ 2) : ReadsAs (dqBits w) (outcomeOf w) := by
  have hdistance := distance_dqBits w
  obtain h0 | h1 | h2 : bitCount w.errors = 0 ∨ bitCount w.errors = 1 ∨ bitCount w.errors = 2 := by omega
  · rw [outcomeOf_none_wrong h0]
    rw [h0] at hdistance
    cases hw : w.content with
    | some d =>
      show dqBits w = validWord d
      rw [dqBits, hw, eq_zero_of_bitCount h0]
      exact BitVec.xor_zero
    | none =>
      rw [hw] at hdistance
      exact hdistance.trans_le (Nat.zero_le 1)
  · rw [outcomeOf_one_wrong h1]
    rw [h1] at hdistance
    cases hw : w.content with
    | some d =>
      rw [hw] at hdistance
      exact hdistance
    | none =>
      rw [hw] at hdistance
      exact hdistance.le
  · cases hw : w.content with
    | some d => exact readsAs_valid_two_wrong hw h2
    | none => exact readsAs_poison_two_wrong hw h2

end CheckBits

section AccessedWords

variable {s : State} {a : AccessRec} {m : Option Extent} {ch : Bits39} {v : Word}

/-- The bank after it has changed bits of an access's word on its own. -/
def State.accessedBank (s : State) (a : AccessRec) (ch : Bits39) : Memory :=
  Memory.disturb s.epoch s.mem (s.bankAddr a.ext a.byteAddr) ch

theorem State.accessedBank_wf (hmem : s.MemCanonical) : Memory.wf (s.accessedBank a ch) = true :=
  Memory.disturb_wf _ _ _ _ hmem

theorem State.stored_accessedBank (hmem : s.MemCanonical) (x : Nat) :
    Memory.stored s.epoch (s.accessedBank a ch) x =
      if x = s.bankAddr a.ext a.byteAddr then s.found a ch else s.word x :=
  Memory.stored_disturb hmem _ x ch

theorem State.readWord_accessedBank (hmem : s.MemCanonical) :
    Memory.readWord s.epoch (s.accessedBank a ch) (s.bankAddr a.ext a.byteAddr) = outcomeOf (s.found a ch) := by
  rw [Memory.readWord, State.stored_accessedBank hmem, if_pos rfl]

/-- The bank after a write and, where it is mirrored, the same write in the target (R132). -/
def State.writtenBank (s : State) (bank : Memory) (a : AccessRec) (m : Option Extent) (d : Word) : Memory :=
  Memory.writeBoth bank (s.bankAddr a.ext a.byteAddr) (m.map fun e => s.bankAddr e a.byteAddr) d

theorem State.stored_writtenBank {bank : Memory} (hbank : Memory.wf bank = true) (d : Word) (x : Nat) :
    (s.StoresTo a m x → Memory.stored s.epoch (s.writtenBank bank a m d) x = ⟨some d, 0⟩) ∧
    (¬ s.StoresTo a m x →
      Memory.stored s.epoch (s.writtenBank bank a m d) x = Memory.stored s.epoch bank x) := by
  cases m with
  | none =>
    have hx : s.StoresTo a none x ↔ x = s.bankAddr a.ext a.byteAddr := by simp [State.StoresTo]
    have hword : Memory.stored s.epoch (s.writtenBank bank a none d) x =
        if x = s.bankAddr a.ext a.byteAddr then ⟨some d, 0⟩ else Memory.stored s.epoch bank x :=
      Memory.stored_put hbank _ x _
    rw [hx, hword]
    exact ⟨fun h => if_pos h, fun h => if_neg h⟩
  | some e =>
    have hx : s.StoresTo a (some e) x ↔ x = s.bankAddr a.ext a.byteAddr ∨ x = s.bankAddr e a.byteAddr := by
      simp [State.StoresTo]
    have hword : Memory.stored s.epoch (s.writtenBank bank a (some e) d) x =
        if x = s.bankAddr e a.byteAddr then ⟨some d, 0⟩
        else if x = s.bankAddr a.ext a.byteAddr then ⟨some d, 0⟩ else Memory.stored s.epoch bank x :=
      (Memory.stored_put (Memory.writeWord_wf _ _ _ hbank) _ x _).trans
        (congrArg (fun y => if x = s.bankAddr e a.byteAddr then (⟨some d, 0⟩ : StoredWord) else y)
          (Memory.stored_put hbank _ x _))
    rw [hx, hword]
    refine ⟨fun h => ?_, fun h => ?_⟩
    · by_cases he : x = s.bankAddr e a.byteAddr
      · exact if_pos he
      · rw [if_neg he, if_pos (h.resolve_right he)]
    · rw [if_neg fun he => h (Or.inr he), if_neg fun ha => h (Or.inl ha)]

theorem State.performAccess_read (hop : a.op = .read) (hmem : s.MemCanonical) :
    s.performAccess a m ch = (s.accessedBank a ch, some (outcomeOf (s.found a ch))) := by
  rw [← State.readWord_accessedBank hmem, State.performAccess, hop]
  rfl

theorem State.performAccess_word (hop : a.op = .write v) (hsize : a.size = .word) :
    s.performAccess a m ch = (s.writtenBank s.mem a m v, none) := by
  rw [State.performAccess, hop, hsize]
  rfl

/-- A byte or halfword is merged into the word read (R57, R131). -/
theorem State.performAccess_merged (hop : a.op = .write v) (hsize : a.size ≠ .word) (hmem : s.MemCanonical) {d : Word}
    (hd : deliveredData (outcomeOf (s.found a ch)) = some d) : s.performAccess a m ch =
      (s.writtenBank (s.accessedBank a ch) a m (mergeLanes a.size a.addr d v), some (outcomeOf (s.found a ch))) := by
  rw [← State.readWord_accessedBank hmem] at hd ⊢
  rw [State.accessedBank] at hd
  rw [State.performAccess, hop]
  dsimp only
  rw [if_neg hsize, hd]
  rfl

/-- Nothing is stored where the word read delivers no data (R57). -/
theorem State.performAccess_withheld (hop : a.op = .write v) (hsize : a.size ≠ .word) (hmem : s.MemCanonical)
    (hd : deliveredData (outcomeOf (s.found a ch)) = none) :
    s.performAccess a m ch = (s.accessedBank a ch, some (outcomeOf (s.found a ch))) := by
  rw [← State.readWord_accessedBank hmem] at hd ⊢
  rw [State.accessedBank] at hd
  rw [State.performAccess, hop]
  dsimp only
  rw [if_neg hsize, hd]
  rfl

/-- The outcome of an access (R122, R129 to R131). -/
theorem State.performAccess_outcome_partial (hop : a.op = .write v) (hsize : a.size ≠ .word) (hmem : s.MemCanonical) :
    (s.performAccess a m ch).2 = some (outcomeOf (s.found a ch)) := by
  cases hd : deliveredData (outcomeOf (s.found a ch)) with
  | some d => rw [State.performAccess_merged hop hsize hmem hd]
  | none => rw [State.performAccess_withheld hop hsize hmem hd]

end AccessedWords

end Sys2Proof.Machine
end
section
/-!
The end of an access (R22, R29, R34, R35, R58, R60 to R62, R144): the report, the port's answer, the engine's take, and
the state at which the port leaves its drain.
-/

namespace Sys2Proof.Machine

section Reports

variable (s : State) (e : Extent) (o : Option WordRead)

/-- The report of an outcome changes entries and the Relocation List (R34, R35). -/
theorem State.reported_eq : s.reported e o =
    { s with extents := (s.reported e o).extents, relocList := (s.reported e o).relocList } := by
  unfold State.reported
  cases o with
  | none => rfl
  | some w =>
    cases w with
    | corrected d =>
      dsimp only
      split
      · split <;> rfl
      · rfl
    | uncorrectable =>
      dsimp only
      split <;> rfl
    | clean | poisoned => rfl

/-- The report of an access's outcome at the end of its unit (R34, R35, R135). -/
theorem State.report_endUnit (m : Memory) : State.report (State.endUnit { s with mem := m }) e o =
    { s with
      extents := (s.reported e o).extents, relocList := (s.reported e o).relocList, mem := m, unit := none } := by
  unfold State.reported
  cases o with
  | none => rfl
  | some w =>
    cases w with
    | corrected d =>
      show State.countCorrection (State.endUnit { s with mem := m }) e = _
      unfold State.countCorrection
      dsimp only
      split
      · next h =>
        rw [if_pos (show (s.entry e).st.isBound = true ∧ (s.entry e).count < s.threshold from h)]
        split
        · next h' => rw [if_pos (show (s.entry e).count + 1 = s.threshold ∧ e ∉ s.relocList from h')]; rfl
        · next h' => rw [if_neg (show ¬ ((s.entry e).count + 1 = s.threshold ∧ e ∉ s.relocList) from h')]; rfl
      · next h => rw [if_neg (show ¬ ((s.entry e).st.isBound = true ∧ (s.entry e).count < s.threshold) from h)]; rfl
    | uncorrectable =>
      unfold State.report
      dsimp only
      split
      · next h => rw [if_pos (show (s.entry e).st.isBound = true ∧ e ∉ s.relocList from h)]; rfl
      · next h => rw [if_neg (show ¬ ((s.entry e).st.isBound = true ∧ e ∉ s.relocList) from h)]; rfl
    | clean | poisoned => rfl

variable {s e o}

/-- The count of an extent after a report that it takes (R34). -/
theorem State.entry_reported_of_counts (h : s.Counts e o) (x : Extent) : (s.reported e o).entry x =
    if x = e then { s.entry x with count := (s.entry x).count + 1 } else s.entry x := by
  obtain ⟨⟨d, rfl⟩, hbound, hcount⟩ := h
  have hentry : ∀ l, State.entry { s with
      extents := Tab.upd s.extents e fun y => { y with count := y.count + 1 }, relocList := l } x =
      if x = e then { s.entry x with count := (s.entry x).count + 1 } else s.entry x :=
    fun _ => Tab.get_upd _ _ _ _
  rw [State.reported]
  dsimp only
  rw [if_pos ⟨hbound, hcount⟩]
  split <;> exact hentry _

theorem State.entry_reported_of_not_counts (h : ¬ s.Counts e o) (x : Extent) :
    (s.reported e o).entry x = s.entry x := by
  unfold State.reported
  cases o with
  | none => rfl
  | some w =>
    cases w with
    | corrected d =>
      dsimp only
      rw [if_neg fun h' => h ⟨⟨d, rfl⟩, h'⟩]
    | uncorrectable =>
      dsimp only
      split <;> rfl
    | clean | poisoned => rfl

/-- The report that lists an extent puts it last in the Relocation List (R34, R35). -/
theorem State.relocList_reported_of_lists (h : s.Lists e o) : (s.reported e o).relocList = s.relocList ++ [e] := by
  obtain ⟨hnew, ⟨⟨⟨d, rfl⟩, hbound, hcount⟩, hreach⟩ | ⟨rfl, hbound⟩⟩ := h
  · rw [State.reported]
    dsimp only
    rw [if_pos ⟨hbound, hcount⟩, if_pos ⟨hreach, hnew⟩]
  · rw [State.reported]
    dsimp only
    rw [if_pos ⟨hbound, hnew⟩]

theorem State.relocList_reported_of_not_lists (h : ¬ s.Lists e o) : (s.reported e o).relocList = s.relocList := by
  unfold State.reported
  cases o with
  | none => rfl
  | some w =>
    cases w with
    | corrected d =>
      dsimp only
      split
      · next hcounts =>
        rw [if_neg fun h' => h ⟨h'.2, Or.inl ⟨⟨⟨d, rfl⟩, hcounts⟩, h'.1⟩⟩]
      · rfl
    | uncorrectable =>
      dsimp only
      rw [if_neg fun h' => h ⟨h'.2, Or.inr ⟨rfl, h'.1⟩⟩]
    | clean | poisoned => rfl

end Reports

section Answers

variable {s : State} {p : Port} {a : AccessRec} {o : Option WordRead} {k : FaultKind} {u : PortUnit}

theorem AccessRec.answer_of_done (h : derrKind o = none) : a.answer o = (⟨.done, a.doneWith o⟩, none) := by
  unfold AccessRec.doneWith
  cases o with
  | none => cases a.op <;> rfl
  | some w =>
    cases w with
    | clean d | corrected d =>
      dsimp only [AccessRec.answer, AccessRec.doneData]
      cases a.op <;> rfl
    | uncorrectable | poisoned => cases h

theorem AccessRec.answer_of_derr (h : derrKind o = some k) : a.answer o = (⟨.derr, some 0⟩, some k) := by
  cases o with
  | none => cases h
  | some w =>
    cases w with
    | clean d | corrected d => cases h
    | uncorrectable | poisoned =>
      cases h
      rfl

theorem PortUnit.given_of_done (h : derrKind o = none) :
    u.given a o = { u with response := some ⟨.done, a.doneWith o⟩ } := by
  rw [PortUnit.given, h]

/-- A DERR on an empty fault record (R58, R62). -/
theorem PortUnit.given_of_derr_empty (h : derrKind o = some k) (hf : u.fault = none) : u.given a o =
    { u with
      response := some ⟨.derr, some 0⟩
      fault := some ⟨k, a.addr, decide (a.op ≠ BusOp.read), some a.handle, false⟩
      attention := KindSet.add u.attention .fault } := by
  rw [PortUnit.given, h, hf]

/-- A DERR on a filled fault record (R58, R62). -/
theorem PortUnit.given_of_derr_filled (h : derrKind o = some k) {f : FaultRecord} (hf : u.fault = some f) :
    u.given a o = { u with response := some ⟨.derr, some 0⟩, fault := some { f with later := true } } := by
  rw [PortUnit.given, h, hf]

/-- What a port is given with the result of its access (R58, R62). -/
theorem PortUnit.given_eq (u : PortUnit) (a : AccessRec) (o : Option WordRead) : u.given a o =
    { u with
      response := (u.given a o).response, fault := (u.given a o).fault, attention := (u.given a o).attention } := by
  cases hk : derrKind o with
  | none => rw [PortUnit.given_of_done hk]
  | some k =>
    cases hf : u.fault with
    | none => rw [PortUnit.given_of_derr_empty hk hf]
    | some f => rw [PortUnit.given_of_derr_filled hk hf]

theorem PortUnit.has_attention_given (u : PortUnit) (a : AccessRec) (o : Option WordRead) (k : Kind) :
    KindSet.has (u.given a o).attention k = true ↔
      KindSet.has u.attention k = true ∨ (k = .fault ∧ derrKind o ≠ none ∧ u.fault = none) := by
  cases hk : derrKind o with
  | none => simp [PortUnit.given_of_done hk]
  | some j =>
    cases hf : u.fault with
    | none => simp [PortUnit.given_of_derr_empty hk hf, KindSet.has_add]
    | some f => simp [PortUnit.given_of_derr_filled hk hf]

/-- The response of an ISSUED access, as the change of its port's record (R58, R62). -/
theorem State.answerAccess_eq (s : State) (p : Port) (a : AccessRec) (o : Option WordRead) :
    s.answerAccess p a o = s.updPort p fun u => u.given a o := by
  cases hk : derrKind o with
  | none =>
    rw [State.answerAccess, AccessRec.answer_of_done hk]
    exact State.updPort_congr (PortUnit.given_of_done hk).symm
  | some k =>
    rw [State.answerAccess, AccessRec.answer_of_derr hk]
    dsimp only
    cases hf : (s.port p).fault with
    | none =>
      rw [State.recordFault, hf]
      refine (congrArg (State.respond · p .derr (some 0)) (State.updPort_updPort _ _)).trans ?_
      exact (State.updPort_updPort _ _).trans (State.updPort_congr (PortUnit.given_of_derr_empty hk hf).symm)
    | some f =>
      rw [State.recordFault, hf]
      exact (State.updPort_updPort _ _).trans (State.updPort_congr (PortUnit.given_of_derr_filled hk hf).symm)

end Answers

section Engine

variable (p : Port) (e : Extent)

/-- The engine's take of a completion (R144). -/
theorem Rle.completed_eq_awaitedLess (r : Rle) : r.completed p e = r.awaitedLess p e := by
  cases r with
  | cutover src tgt ptr aw cl bu x =>
    cases x with
    | notRequested =>
      rw [Rle.completed, Rle.awaitedLess, SwapState.request_eq]
    | requested | taken => rfl
  | idle | waiting | copying | abandoning => rfl

theorem Rle.awaitedLess_cutover (src tgt : Extent) (ptr : Nat) (aw cl bu : PortSet) (x : SwapState) :
    Rle.awaitedLess (.cutover src tgt ptr aw cl bu x) p e =
      if x = .notRequested ∧ e = src ∧ aw.has p = true then
        .cutover src tgt ptr (aw.erase p) (cl.erase p) (bu.erase p)
          (if aw.erase p = PortSet.none then .requested else .notRequested)
      else .cutover src tgt ptr aw cl bu x := by
  cases x with
  | notRequested =>
    rw [Rle.awaitedLess]
    simp only [true_and]
  | requested | taken => exact (if_neg fun h => nomatch h.1).symm

end Engine

end Sys2Proof.Machine
end
section
/-!
The completion of a read and of a write (R22, R29, R34, R35, R38, R56 to R58, R60, R93, R94, R128 to R132, R144, R151,
R161, R173).
-/

namespace Sys2Proof.Machine

section AccessEnds

variable (s : State) (m : Memory) (p : Port) (a : AccessRec) (o : Option WordRead) (live : Bool)

/-- The part at the end of an access, before its port leaves the drain: the report, the port's response and the
engine's take (R34, R35, R58, R144). -/
def State.accessEnding : State :=
  { s with
    extents := (s.reported a.ext o).extents
    relocList := (s.reported a.ext o).relocList
    mem := m
    unit := none
    rle := s.rle.awaitedLess p a.ext
    ports := Tab.upd s.ports p fun x => { (if live then x.given a o else x) with access := .idle } }

/-- The part when the port has left its drain and its hold wait (R22, R93, R161). -/
def State.accessLeft : State :=
  ((s.accessEnding m p a o live).leave a.handle.slot (.port p)).endHoldWait p

theorem State.accessDone_eq_accessLeft : s.accessDone m p a o live = s.accessLeft m p a o live := by
  have hending : { s.reported a.ext o with
      mem := m
      unit := none
      rle := s.rle.awaitedLess p a.ext
      ports := Tab.upd s.ports p fun x => { (if live then x.given a o else x) with access := .idle } } =
      s.accessEnding m p a o live :=
    congrArg (fun v : State => { v with
      mem := m
      unit := none
      rle := s.rle.awaitedLess p a.ext
      ports := Tab.upd s.ports p fun x => { (if live then x.given a o else x) with access := .idle } })
      (s.reported_eq a.ext o)
  rw [State.accessLeft, State.leave_port_eq_portLeft, State.endHoldWait_eq_holdWaitEnded, ← hending]
  rfl

/-- The completion of an access, by its effect on the bank and its outcome (R22, R58, R60, R93, R161). -/
theorem State.completeAccess_eq (mirror : Option Extent) (ch : Bits39) : s.completeAccess p a live mirror ch =
    (s.accessLeft (s.performAccess a mirror ch).1 p a (s.performAccess a mirror ch).2 live).settle := by
  unfold State.completeAccess
  dsimp only
  rw [State.report_endUnit, State.answerAccess_eq, Rle.completed_eq_awaitedLess]
  cases live with
  | false => rfl
  | true =>
    rw [if_pos rfl, State.updPort_updPort]
    rfl

variable {s m p a o live}

theorem State.AccessInUnit.memCanonical {mirror : Option Extent} (h : s.AccessInUnit p a mirror live) :
    s.MemCanonical := by
  obtain ⟨-, -, hmem, -⟩ := h
  exact hmem

/-- The completion is due where the access is the unit in progress (R58). -/
theorem exec_accessCompletion {mirror : Option Extent} (h : s.AccessInUnit p a mirror live) (ch : Bits39) :
    exec (.accessCompletion p ch) s = .next
      (s.accessLeft (s.performAccess a mirror ch).1 p a (s.performAccess a mirror ch).2 live).settle := by
  obtain ⟨hn, hunit, -, haccess⟩ := h
  rw [show exec (.accessCompletion p ch) s = execAccessCompletion p ch s from rfl, execAccessCompletion, hn, hunit,
    haccess, ← State.completeAccess_eq]
  cases live <;> exact if_pos rfl

end AccessEnds

section PortsAtEnd

variable (s : State) (m : Memory) (p : Port) (a : AccessRec) (o : Option WordRead) (live : Bool) {q : Port}

theorem State.port_accessEnding_self : (s.accessEnding m p a o live).port p =
    { (if live then (s.port p).given a o else s.port p) with access := .idle } :=
  Tab.get_upd_self _ _ _

theorem State.port_accessEnding_of_ne (hq : q ≠ p) : (s.accessEnding m p a o live).port q = s.port q :=
  Tab.get_upd_of_ne _ hq _

/-- A port at the end of an access: its access is over, and an ISSUED one is answered (R58). -/
theorem State.port_accessEnding_frame : (s.accessEnding m p a o live).port p =
    { s.port p with
      access := .idle
      response := ((s.accessEnding m p a o live).port p).response
      fault := ((s.accessEnding m p a o live).port p).fault
      attention := ((s.accessEnding m p a o live).port p).attention } := by
  rw [State.port_accessEnding_self]
  cases live with
  | false => rfl
  | true =>
    rw [if_pos rfl, PortUnit.given_eq]

theorem State.slot_accessEnding (q : Port) : ((s.accessEnding m p a o live).port q).slot = (s.port q).slot := by
  by_cases hq : q = p
  · rw [hq, State.port_accessEnding_frame]
  · rw [State.port_accessEnding_of_ne _ _ _ _ _ _ hq]

theorem State.holdWait_accessEnding (q : Port) :
    ((s.accessEnding m p a o live).port q).holdWait = (s.port q).holdWait := by
  by_cases hq : q = p
  · rw [hq, State.port_accessEnding_frame]
  · rw [State.port_accessEnding_of_ne _ _ _ _ _ _ hq]

/-- The leaving of the drain and of the hold wait is seen in the supervisor's slot and in the attention sets (R161,
R173). -/
theorem State.port_accessLeft (q : Port) : (s.accessLeft m p a o live).port q =
    { (s.accessEnding m p a o live).port q with
      holdWait := if q = p then .absent else (s.port q).holdWait
      attention := ((s.accessLeft m p a o live).port q).attention
      slot := ((s.accessLeft m p a o live).port q).slot } := by
  rw [← State.holdWait_accessEnding s m p a o live q]
  refine (State.port_endHoldWait_frame _ _ _).trans ?_
  rw [State.port_leave]
  rfl

theorem State.response_accessLeft :
    ((s.accessLeft m p a o live).port p).response =
      (if live then (s.port p).given a o else s.port p).response := by
  rw [State.port_accessLeft, State.port_accessEnding_self]

theorem State.fault_accessLeft :
    ((s.accessLeft m p a o live).port p).fault = (if live then (s.port p).given a o else s.port p).fault := by
  rw [State.port_accessLeft, State.port_accessEnding_self]

theorem State.port_accessLeft_self : (s.accessLeft m p a o live).port p =
    { s.port p with
      access := .idle
      holdWait := .absent
      response := ((s.accessLeft m p a o live).port p).response
      fault := ((s.accessLeft m p a o live).port p).fault
      attention := ((s.accessLeft m p a o live).port p).attention
      slot := ((s.accessLeft m p a o live).port p).slot } := by
  rw [State.response_accessLeft, State.fault_accessLeft]
  refine (State.port_accessLeft _ _ _ _ _ _ _).trans ?_
  rw [State.port_accessEnding_frame, State.port_accessEnding_self, if_pos rfl]

theorem State.port_accessLeft_of_ne (hq : q ≠ p) : (s.accessLeft m p a o live).port q =
    { s.port q with
      attention := ((s.accessLeft m p a o live).port q).attention
      slot := ((s.accessLeft m p a o live).port q).slot } := by
  refine (State.port_accessLeft _ _ _ _ _ _ _).trans ?_
  rw [State.port_accessEnding_of_ne _ _ _ _ _ _ hq, if_neg hq]

/-- The response and the fault record after a DERR to an ISSUED access (R58, R62). -/
theorem State.derr_accessLeft {k : FaultKind} (hk : derrKind o = some k) :
    ((s.accessLeft m p a o true).port p).response = some ⟨.derr, some 0⟩ ∧
    ((s.port p).fault = none → ((s.accessLeft m p a o true).port p).fault =
      some ⟨k, a.addr, decide (a.op ≠ BusOp.read), some a.handle, false⟩) ∧
    (∀ f, (s.port p).fault = some f →
      ((s.accessLeft m p a o true).port p).fault = some { f with later := true }) := by
  rw [State.response_accessLeft, State.fault_accessLeft, if_pos rfl]
  refine ⟨?_, fun hf => ?_, fun f hf => ?_⟩
  · cases hf : (s.port p).fault with
    | none => rw [PortUnit.given_of_derr_empty hk hf]
    | some f => rw [PortUnit.given_of_derr_filled hk hf]
  · rw [PortUnit.given_of_derr_empty hk hf]
  · rw [PortUnit.given_of_derr_filled hk hf]

theorem State.fault_accessLeft_kept (h : derrKind o = none ∨ live = false) :
    ((s.accessLeft m p a o live).port p).fault = (s.port p).fault := by
  rw [State.fault_accessLeft]
  obtain hk | rfl := h
  · rw [PortUnit.given_of_done hk]
    split <;> rfl
  · rfl

/-- The response to an ISSUED access with no DERR (R56, R57). -/
theorem State.done_accessLeft (hk : derrKind o = none) :
    ((s.accessLeft m p a o true).port p).response = some ⟨.done, a.doneWith o⟩ := by
  rw [State.response_accessLeft, if_pos rfl, PortUnit.given_of_done hk]

end PortsAtEnd

section SlotsAtEnd

variable (s : State) (m : Memory) (p : Port) (a : AccessRec) (o : Option WordRead) (live : Bool) {q : Port}

/-- The slots when the port has left its drain, by the end of CLEAR's (R173). -/
theorem State.slot_accessEnding_leave :
    (∀ q, q ≠ s.supervisor →
      (((s.accessEnding m p a o live).leave a.handle.slot (.port p)).port q).slot = (s.port q).slot) ∧
    (∀ n, s.ClearFinishes a.handle.slot (.port p) n →
      (((s.accessEnding m p a o live).leave a.handle.slot (.port p)).port s.supervisor).slot =
        { (s.port s.supervisor).slot with state := .done .ok, res := ⟨BitVec.ofNat 32 n, 0, 0, 0⟩ }) ∧
    ((∀ n, ¬ s.ClearFinishes a.handle.slot (.port p) n) →
      (((s.accessEnding m p a o live).leave a.handle.slot (.port p)).port s.supervisor).slot =
        (s.port s.supervisor).slot) := by
  have hslot := State.slot_accessEnding s m p a o live
  refine ⟨fun q hq => ?_, fun n hn => ?_, fun hnone => ?_⟩
  · exact (State.slot_leave_of_ne (s.accessEnding m p a o live) _ _ hq).trans (hslot q)
  · rw [← hslot]
    exact State.slot_leave_of_finishes (s.accessEnding m p a o live) _ _ hn
  · exact (State.slot_leave_of_not_finishes (s.accessEnding m p a o live) _ _ hnone _).trans (hslot _)

theorem State.holdWait_accessEnding_leave (q : Port) :
    (((s.accessEnding m p a o live).leave a.handle.slot (.port p)).port q).holdWait = (s.port q).holdWait := by
  rw [State.port_leave, State.holdWait_accessEnding]

theorem State.supervisor_accessEnding_leave :
    ((s.accessEnding m p a o live).leave a.handle.slot (.port p)).supervisor = s.supervisor :=
  congrArg Straps.supervisor (State.leave_straps _ _ _)

/-- The slot of a port when the hold wait of `p` is over, by what the leaving of the drain left (R161). -/
theorem State.slot_accessLeft (q : Port) : ((s.accessLeft m p a o live).port q).slot =
    if (s.port p).holdWait = .present true ∧ q = s.supervisor then
      { (((s.accessEnding m p a o live).leave a.handle.slot (.port p)).port q).slot with
        state := .done .ok, res := Words4.zero }
    else (((s.accessEnding m p a o live).leave a.handle.slot (.port p)).port q).slot := by
  rw [← State.holdWait_accessEnding_leave s m p a o live p, ← State.supervisor_accessEnding_leave s m p a o live]
  exact State.slot_endHoldWait _ _ _

theorem State.slot_accessLeft_of_ne (hq : q ≠ s.supervisor) :
    ((s.accessLeft m p a o live).port q).slot = (s.port q).slot := by
  rw [State.slot_accessLeft, if_neg fun h => hq h.2, (State.slot_accessEnding_leave s m p a o live).1 q hq]

/-- The HOLD that waited for the access is over (R161). -/
theorem State.slot_accessLeft_of_hold (hwait : (s.port p).holdWait = .present true) :
    ((s.accessLeft m p a o live).port s.supervisor).slot =
      { (s.port s.supervisor).slot with state := .done .ok, res := Words4.zero } := by
  obtain ⟨-, hfinishes, hnone⟩ := State.slot_accessEnding_leave s m p a o live
  rw [State.slot_accessLeft, if_pos ⟨hwait, rfl⟩]
  by_cases hfinish : ∃ n, s.ClearFinishes a.handle.slot (.port p) n
  · obtain ⟨n, hn⟩ := hfinish
    rw [hfinishes n hn]
  · rw [hnone (not_exists.1 hfinish)]

/-- With no HOLD the slot is that of CLEAR's end, or as it was (R173). -/
theorem State.slot_accessLeft_of_clear (hwait : (s.port p).holdWait ≠ .present true) :
    (∀ n, s.ClearFinishes a.handle.slot (.port p) n → ((s.accessLeft m p a o live).port s.supervisor).slot =
      { (s.port s.supervisor).slot with state := .done .ok, res := ⟨BitVec.ofNat 32 n, 0, 0, 0⟩ }) ∧
    ((∀ n, ¬ s.ClearFinishes a.handle.slot (.port p) n) →
      ((s.accessLeft m p a o live).port s.supervisor).slot = (s.port s.supervisor).slot) := by
  rw [State.slot_accessLeft, if_neg fun h => hwait h.1]
  exact (State.slot_accessEnding_leave s m p a o live).2

/-- What a port is told by the answer itself (R62). -/
theorem State.has_accessEnding (q : Port) (k : Kind) :
    KindSet.has ((s.accessEnding m p a o live).port q).attention k = true ↔
      KindSet.has (s.port q).attention k = true ∨
        (q = p ∧ k = .fault ∧ live = true ∧ derrKind o ≠ none ∧ (s.port p).fault = none) := by
  by_cases hq : q = p
  · subst hq
    rw [State.port_accessEnding_self]
    cases live with
    | false => simp
    | true => simpa using PortUnit.has_attention_given (s.port q) a o k
  · rw [State.port_accessEnding_of_ne _ _ _ _ _ _ hq]
    exact (or_iff_left fun h => hq h.1).symm

/-- What the ports are told at the end of an access (R62, R94, R161, R173). -/
theorem State.adds_accessLeft : Adds s (s.accessLeft m p a o live) fun q k =>
    (q = p ∧ k = .fault ∧ live = true ∧ derrKind o ≠ none ∧ (s.port p).fault = none) ∨
    (k = .drained ∧ (s.window a.handle.slot).owner = some q ∧ s.DrainEnds a.handle.slot (.port p)) ∨
    (q = s.supervisor ∧ k = .done ∧ ((s.port p).holdWait = .present true ∨
      ∃ n, s.ClearFinishes a.handle.slot (.port p) n)) := by
  intro q k
  have hleave :
      KindSet.has (((s.accessEnding m p a o live).leave a.handle.slot (.port p)).port q).attention k = true ↔
      (KindSet.has (s.port q).attention k = true ∨
        (q = p ∧ k = .fault ∧ live = true ∧ derrKind o ≠ none ∧ (s.port p).fault = none)) ∨
      ((k = .drained ∧ (s.window a.handle.slot).owner = some q ∧ s.DrainEnds a.handle.slot (.port p)) ∨
        (q = s.supervisor ∧ k = .done ∧ ∃ n, s.ClearFinishes a.handle.slot (.port p) n)) :=
    (State.adds_leave (s.accessEnding m p a o live) a.handle.slot (.port p) q k).trans
      (or_congr_left (State.has_accessEnding s m p a o live q k))
  have hhold : KindSet.has ((s.accessLeft m p a o live).port q).attention k = true ↔
      KindSet.has (((s.accessEnding m p a o live).leave a.handle.slot (.port p)).port q).attention k = true ∨
      (q = s.supervisor ∧ k = .done ∧ (s.port p).holdWait = .present true) := by
    rw [← State.holdWait_accessEnding_leave s m p a o live p, ← State.supervisor_accessEnding_leave s m p a o live]
    exact State.adds_endHoldWait _ _ q k
  rw [hhold, hleave, or_assoc, or_assoc, or_assoc, ← and_or_left, ← and_or_left,
    or_comm (b := (s.port p).holdWait = .present true)]

end SlotsAtEnd

section TablesAtEnd

variable (s : State) (m : Memory) (p : Port) (a : AccessRec) (o : Option WordRead) (live : Bool)

/-- An extent that has reached the Wipe List stays there until the Wipe Engine takes it (R41). -/
theorem Wiped.settle {v : State} {l : List Extent} (h : Wiped v l) : Wiped v.settle l := by
  intro e he
  obtain hlist | hwpe := h e he
  · exact v.settle_mem_wipeList hlist
  · right
    rw [State.settle, State.grantMemory_wpe]
    rcases v.rleSettle.wpeTake_cases with hsame | ⟨f, rest, hidle, -⟩
    · rw [hsame, State.rleSettle_wpe, hwpe]
    · rw [State.rleSettle_wpe, hwpe] at hidle
      cases hidle

theorem State.memberLeft_accessLeft :
    MemberLeft s (s.accessLeft m p a o live).settle a.handle.slot (.port p) := by
  have hleft : MemberLeft s ((s.accessEnding m p a o live).leave a.handle.slot (.port p)) a.handle.slot (.port p) :=
    State.memberLeft_leave (s.accessEnding m p a o live) a.handle.slot (.port p)
  refine hleft.mono _ _ ?_ ?_ fun l hl => ?_
  · rw [State.settle_windows, State.accessLeft, State.endHoldWait_windows]
  · rw [State.settle_clearRec, State.accessLeft, State.endHoldWait_clearRec]
  · refine Wiped.settle fun e he => ?_
    rw [State.accessLeft, State.endHoldWait_wipeList, State.endHoldWait_wpe]
    exact hl e he

/-- The count and the mark of an extent at the end of an access (R34). -/
theorem State.count_accessLeft (e : Extent) :
    ((s.accessLeft m p a o live).settle.entry e).poisoned = (s.entry e).poisoned ∧
    ((s.accessLeft m p a o live).settle.entry e).count = ((s.reported a.ext o).entry e).count := by
  obtain ⟨hcount, hpoisoned⟩ := State.settle_count (s.accessLeft m p a o live) e
  rw [State.accessLeft, State.entry_congr (State.endHoldWait_extents _ _)] at hcount hpoisoned
  obtain ⟨hcount', hpoisoned'⟩ :=
    State.count_leave (s.accessEnding m p a o live) a.handle.slot (.port p) e
  refine ⟨hpoisoned.trans (hpoisoned'.trans ?_), hcount.trans hcount'⟩
  show ((s.reported a.ext o).entry e).poisoned = (s.entry e).poisoned
  by_cases hcounts : s.Counts a.ext o
  · rw [State.entry_reported_of_counts hcounts]
    split <;> rfl
  · rw [State.entry_reported_of_not_counts hcounts]

theorem State.relocList_accessLeft : (s.accessLeft m p a o live).relocList = (s.reported a.ext o).relocList := by
  rw [State.accessLeft, State.endHoldWait_relocList, State.leave_relocList]
  rfl

/-- The Relocation List at the end of an access (R34, R35, R139). -/
theorem State.mem_relocList_accessLeft :
    (s.Lists a.ext o → a.ext ∈ (s.accessLeft m p a o live).settle.relocList ∨
      ∃ tgt, (s.accessLeft m p a o live).settle.rle = .copying a.ext tgt 0) ∧
    (∀ e ∈ (s.accessLeft m p a o live).settle.relocList,
      e ∈ s.relocList ∨ (e = a.ext ∧ s.Lists a.ext o)) := by
  refine ⟨fun hlists => State.settle_mem_relocList _ ?_, fun e he => ?_⟩
  · rw [State.relocList_accessLeft, State.relocList_reported_of_lists hlists]
    exact List.mem_append_right _ (List.mem_singleton_self _)
  · have hmem := State.mem_relocList_settle _ he
    rw [State.relocList_accessLeft] at hmem
    by_cases hlists : s.Lists a.ext o
    · rw [State.relocList_reported_of_lists hlists, List.mem_append, List.mem_singleton] at hmem
      exact hmem.imp_right fun h => ⟨h, hlists⟩
    · rw [State.relocList_reported_of_not_lists hlists] at hmem
      exact Or.inl hmem

variable {s a p} in
/-- An engine that copies, or is at CUTOVER, is where the completion's take leaves it (R144, R151, R173). -/
theorem State.rle_accessLeft {r : Rle} (hr : s.rle.awaitedLess p a.ext = r) (hidle : r ≠ .idle)
    (hwaiting : r ≠ .waiting) (habandoning : ∀ x y z b c, r ≠ .abandoning x y z b c) :
    (s.accessLeft m p a o live).settle.rle = r := by
  have hrle : (s.accessLeft m p a o live).rle = r := by
    rw [State.accessLeft, State.endHoldWait_rle, State.rle_leave_of_not_abandoning]
    · exact hr
    · exact fun x y z b c h => habandoning x y z b c (hr.symm.trans h)
  rw [State.settle_rle_of_busy _ (hrle ▸ hidle) (hrle ▸ hwaiting), hrle]

/-- No grant is made while a refresh is pending (R121, R126). -/
theorem State.unit_accessLeft (h : s.refreshPending = true) : (s.accessLeft m p a o live).settle.unit = none := by
  have hpending : (s.accessLeft m p a o live).refreshPending = true := by
    rw [State.accessLeft, State.endHoldWait_refreshPending, State.leave_refreshPending]
    exact h
  rw [State.settle_of_refreshPending hpending, State.wpeTake_unit, State.rleSettle_unit, State.accessLeft,
    State.endHoldWait_unit, State.leave_unit]
  rfl

end TablesAtEnd

section AccessEnded

variable (s : State) (m : Memory) (p : Port) (a : AccessRec) (o : Option WordRead) (live : Bool)

theorem State.mem_accessLeft : (s.accessLeft m p a o live).settle.mem = m := by
  rw [State.settle_mem, State.accessLeft, State.endHoldWait_mem, State.leave_mem]
  rfl

theorem State.epoch_accessLeft : (s.accessLeft m p a o live).settle.epoch = s.epoch := by
  rw [State.settle_epoch, State.accessLeft, State.endHoldWait_epoch, State.leave_epoch]
  rfl

/-- The completion of an access, record by record. -/
theorem State.accessEnded : AccessEnded s (s.accessLeft m p a o live).settle p a o live := by
  have hport : ∀ q, (s.accessLeft m p a o live).settle.port q = (s.accessLeft m p a o live).port q :=
    State.port_congr (State.settle_ports _)
  obtain ⟨hlisted, hlist⟩ := State.mem_relocList_accessLeft s m p a o live
  unfold AccessEnded
  simp only [hport]
  refine ⟨?_, State.port_accessLeft_self s m p a o live, fun q hq => State.port_accessLeft_of_ne s m p a o live hq,
    State.fault_accessLeft_kept s m p a o live, fun k hk hlive => ?_, fun hlive => ?_,
    fun q hq => State.slot_accessLeft_of_ne s m p a o live hq, State.slot_accessLeft_of_hold s m p a o live,
    State.slot_accessLeft_of_clear s m p a o live, ?_, State.memberLeft_accessLeft s m p a o live, fun e => ?_,
    hlisted, hlist, fun src tgt ptr hr => ?_, fun src tgt ptr aw cl bu x hr => ?_, ?_, ?_, ?_, ?_, ?_,
    State.unit_accessLeft s m p a o live⟩
  · rw [State.mem_accessLeft, State.accessDone_eq_accessLeft]
  · subst hlive
    exact State.derr_accessLeft s m p a o hk
  · subst hlive
    exact State.response_accessLeft s m p a o false
  · intro q k
    rw [hport]
    exact State.adds_accessLeft s m p a o live q k
  · obtain ⟨hpoisoned, hcount⟩ := State.count_accessLeft s m p a o live e
    refine ⟨hpoisoned, hcount.trans ?_⟩
    by_cases hcounts : s.Counts a.ext o
    · rw [State.entry_reported_of_counts hcounts]
      by_cases he : e = a.ext
      · rw [if_pos he, if_pos ⟨he, he ▸ hcounts⟩]
      · rw [if_neg he, if_neg fun h => he h.1]
    · have hnone : ¬ (e = a.ext ∧ s.Counts e o) := fun ⟨he, h⟩ => hcounts (he ▸ h)
      rw [State.entry_reported_of_not_counts hcounts, if_neg hnone]
  · rw [hr]
    exact State.rle_accessLeft m o live (congrArg (Rle.awaitedLess · p a.ext) hr) nofun nofun nofun
  · have hengine := (congrArg (Rle.awaitedLess · p a.ext) hr).trans
      (Rle.awaitedLess_cutover p a.ext src tgt ptr aw cl bu x)
    rw [hr]
    refine State.rle_accessLeft m o live hengine ?_ ?_ ?_ <;> split <;> nofun
  · rw [State.settle_accounts, State.accessLeft, State.endHoldWait_accounts, State.leave_accounts]
    rfl
  · rw [State.settle_straps, State.accessLeft, State.endHoldWait_straps, State.leave_straps]
    rfl
  · rw [State.settle_threshold, State.accessLeft, State.endHoldWait_threshold, State.leave_threshold]
    rfl
  · rw [State.settle_lastServed, State.accessLeft, State.endHoldWait_lastServed, State.leave_lastServed]
    rfl
  · rw [State.settle_refreshPending, State.accessLeft, State.endHoldWait_refreshPending,
      State.leave_refreshPending]
    rfl

/-- A word of the bank after the end of an access. -/
theorem State.word_accessLeft (x : Nat) :
    (s.accessLeft m p a o live).settle.word x = Memory.stored s.epoch m x := by
  rw [State.word, State.mem_accessLeft, State.epoch_accessLeft]

/-- The response to an ISSUED access with no DERR, after what follows at once (R56, R57). -/
theorem State.done_accessEnded (hk : derrKind o = none) (hlive : live = true) :
    ((s.accessLeft m p a o live).settle.port p).response = some ⟨.done, a.doneWith o⟩ := by
  rw [State.port_congr (State.settle_ports _), hlive]
  exact State.done_accessLeft s m p a o hk

end AccessEnded

section Completions

variable {s : State} {p : Port} {a : AccessRec} {m : Option Extent} {ch : Bits39} {live : Bool} {o : WordRead}
  {d v : Word}

theorem derrKind_eq_none (h : o = .clean d ∨ o = .corrected d) : derrKind (some o) = none := by
  obtain rfl | rfl := h <;> rfl

theorem deliveredData_eq_some (h : o = .clean d ∨ o = .corrected d) : deliveredData o = some d := by
  obtain rfl | rfl := h <;> rfl

theorem deliveredData_eq_none (h : o = .uncorrectable ∨ o = .poisoned) : deliveredData o = none := by
  obtain rfl | rfl := h <;> rfl

/-- The DONE of a read carries the requested lanes (R56, R174). -/
theorem AccessRec.doneWith_read (hop : a.op = .read) (h : o = .clean d ∨ o = .corrected d) :
    a.doneWith (some o) = some (d &&& laneMask a.size a.addr) := by
  unfold AccessRec.doneWith
  rw [hop]
  obtain rfl | rfl := h <;> rfl

/-- The DONE of a write carries no data (log 12). -/
theorem AccessRec.doneWith_write (hop : a.op = .write v) (o : Option WordRead) : a.doneWith o = none := by
  unfold AccessRec.doneWith
  rw [hop]

/-- Where nothing is stored, only the access's word can differ, by the bits the bank changed (R56, R57). -/
theorem State.words_accessedBank (hmem : s.MemCanonical) (o : Option WordRead) :
    (s.accessLeft (s.accessedBank a ch) p a o live).settle.word (s.bankAddr a.ext a.byteAddr) = s.found a ch ∧
    WordsKept s (s.accessLeft (s.accessedBank a ch) p a o live).settle
      (fun x => x = s.bankAddr a.ext a.byteAddr) := by
  refine ⟨?_, State.epoch_accessLeft _ _ _ _ _ _, fun x hx => ?_⟩
  · rw [State.word_accessLeft, State.stored_accessedBank hmem, if_pos rfl]
  · rw [State.word_accessLeft, State.stored_accessedBank hmem, if_neg hx]

/-- The words that a write stores, over a bank that differs from the part's in the access's word at most (R57,
R132). -/
theorem State.words_writtenBank {bank : Memory} (hbank : Memory.wf bank = true)
    (hrest : ∀ x, x ≠ s.bankAddr a.ext a.byteAddr → Memory.stored s.epoch bank x = s.word x) (d : Word)
    (o : Option WordRead) :
    (∀ x, s.StoresTo a m x →
      (s.accessLeft (s.writtenBank bank a m d) p a o live).settle.word x = ⟨some d, 0⟩) ∧
    WordsKept s (s.accessLeft (s.writtenBank bank a m d) p a o live).settle (s.StoresTo a m) := by
  refine ⟨fun x hx => ?_, State.epoch_accessLeft _ _ _ _ _ _, fun x hx => ?_⟩
  · rw [State.word_accessLeft]
    exact (State.stored_writtenBank hbank d x).1 hx
  · rw [State.word_accessLeft, (State.stored_writtenBank hbank d x).2 hx]
    exact hrest x fun h => hx (Or.inl h)

/-- Settles O46: the code's distances, the table's rows by `readsAs_outcomeOf`, and the completion by
`State.accessEnded` with the bank of `State.performAccess_read`. -/
theorem readCompletionAnswers : Obligations.ReadCompletionAnswers := by
  refine ⟨partCode.apart, partCode.poisonApart, fun w h => readsAs_outcomeOf h,
    fun s p a m ch live o hunit hop ho => ?_⟩
  have hmem : s.MemCanonical := hunit.memCanonical
  have hexec := exec_accessCompletion hunit ch
  rw [State.performAccess_read hop hmem, ← ho] at hexec
  refine ⟨_, hexec, State.accessEnded _ _ _ _ _ _, fun d hlive hd => ?_, State.words_accessedBank hmem _⟩
  rw [State.done_accessEnded _ _ _ _ _ _ (derrKind_eq_none hd) hlive, AccessRec.doneWith_read hop hd]

/-- A full-word write (R57, R130). -/
theorem wordWrite_completes (hunit : s.AccessInUnit p a m live) (hop : a.op = .write v) (hsize : a.size = .word) :
    ∃ t, exec (.accessCompletion p ch) s = .next t ∧ AccessEnded s t p a none live ∧
      (live = true → (t.port p).response = some ⟨.done, none⟩) ∧
      (∀ x, s.StoresTo a m x → t.word x = ⟨some v, 0⟩) ∧ WordsKept s t (s.StoresTo a m) := by
  have hmem : s.MemCanonical := hunit.memCanonical
  have hexec := exec_accessCompletion hunit ch
  rw [State.performAccess_word hop hsize] at hexec
  refine ⟨_, hexec, State.accessEnded _ _ _ _ _ _, fun hlive => ?_,
    State.words_writtenBank hmem (fun _ _ => rfl) v none⟩
  rw [State.done_accessEnded _ _ _ _ _ _ rfl hlive, AccessRec.doneWith_write hop]

/-- A byte or halfword merged into the word read (R57, R131). -/
theorem mergedWrite_completes (hunit : s.AccessInUnit p a m live) (hop : a.op = .write v) (hsize : a.size ≠ .word)
    (ho : o = outcomeOf (s.found a ch)) (hd : o = .clean d ∨ o = .corrected d) :
    ∃ t, exec (.accessCompletion p ch) s = .next t ∧ AccessEnded s t p a (some o) live ∧
      (live = true → (t.port p).response = some ⟨.done, none⟩) ∧
      (∀ x, s.StoresTo a m x → t.word x =
        ⟨some ((d &&& ~~~ laneMask a.size a.addr) ||| (v &&& laneMask a.size a.addr)), 0⟩) ∧
      WordsKept s t (s.StoresTo a m) := by
  have hmem : s.MemCanonical := hunit.memCanonical
  have hexec := exec_accessCompletion hunit ch
  rw [State.performAccess_merged hop hsize hmem (ho ▸ deliveredData_eq_some hd), ← ho] at hexec
  refine ⟨_, hexec, State.accessEnded _ _ _ _ _ _, fun hlive => ?_,
    State.words_writtenBank (State.accessedBank_wf hmem)
      (fun x hx => (State.stored_accessedBank hmem x).trans (if_neg hx)) _ _⟩
  rw [State.done_accessEnded _ _ _ _ _ _ (derrKind_eq_none hd) hlive, AccessRec.doneWith_write hop]

/-- A byte or halfword that finds a word it cannot merge into (R57). -/
theorem withheldWrite_completes (hunit : s.AccessInUnit p a m live) (hop : a.op = .write v) (hsize : a.size ≠ .word)
    (ho : o = outcomeOf (s.found a ch)) (hd : o = .uncorrectable ∨ o = .poisoned) :
    ∃ t, exec (.accessCompletion p ch) s = .next t ∧ AccessEnded s t p a (some o) live ∧
      t.word (s.bankAddr a.ext a.byteAddr) = s.found a ch ∧
      WordsKept s t (fun x => x = s.bankAddr a.ext a.byteAddr) := by
  have hmem : s.MemCanonical := hunit.memCanonical
  have hexec := exec_accessCompletion hunit ch
  rw [State.performAccess_withheld hop hsize hmem (ho ▸ deliveredData_eq_none hd), ← ho] at hexec
  exact ⟨_, hexec, State.accessEnded _ _ _ _ _ _, State.words_accessedBank hmem _⟩

/-- Settles O47: a full word, a merged part of a word, and one withheld. -/
theorem writeCompletionStores : Obligations.WriteCompletionStores := by
  refine fun s p a m ch live v hunit hop => ⟨fun hsize => wordWrite_completes hunit hop hsize,
    fun hsize o ho => ?_⟩
  cases o with
  | clean d | corrected d =>
    obtain ⟨t, hexec, hended, hdone, hstored, hkept⟩ :=
      mergedWrite_completes (d := d) hunit hop hsize ho (by simp)
    refine ⟨t, hexec, hended, fun d' hd' => ?_, nofun⟩
    have hdata : d = d' := by simpa using hd'
    rw [← hdata]
    exact ⟨hdone, hstored, hkept⟩
  | uncorrectable | poisoned =>
    obtain ⟨t, hexec, hended, hword, hkept⟩ := withheldWrite_completes hunit hop hsize ho (by simp)
    exact ⟨t, hexec, hended, nofun, fun _ => ⟨hword, hkept⟩⟩

end Completions

end Sys2Proof.Machine
end
